-- ==== Sys2Proof/Word.lean ====
section
/-! DEFINITION. The three widths of the block's data: the byte of the stream and of the frame buffer, the 16-bit
word of the host registers, the 12-bit event word (00_scope.md R9, 20_memory.md R47, 30_encoding.md R62). -/

namespace Sys2Proof

/-- A byte of the stream or of the frame buffer (R40). -/
abbrev Byte := BitVec 8

/-- A 16-bit unsigned word: a measurement field, a counter, a host register (R22, R40). -/
abbrev Word := BitVec 16

/-- A 12-bit event word, kind in bits 11..8 and operand in bits 7..0 (R62). -/
abbrev EventWord := BitVec 12

end Sys2Proof
end

