-- ==== Sys2Proof/Syntax.lean ====
section
/-! DEFINITION. The events of the block, one constructor per row of spec/opcode_table.json (30_encoding.md R63,
43_host_access.md R126 to R148). Reserved words and reads of reserved addresses are no rows of the table: the decoder
rejects them by name and the step gives them the effect of R66 and R150. -/

namespace Sys2Proof

/-- The block's events ("instructions", 00_scope.md R1). -/
inductive Instr where
  /-- `NOP` (R149). -/
  | nop
  /-- `RX b`: the source offers byte `b` (R81 to R83). -/
  | rx (b : Byte)
  /-- `EMPTY`: a poll tick without a byte (R84, R85). -/
  | empty
  /-- `START`: open an attempt (R80). -/
  | start
  /-- `INIT`: configure the enable pin (R115). -/
  | init
  /-- `ACTIVE`: enable pin high (R116). -/
  | active
  /-- `SLEEP`: enable pin low (R117). -/
  | sleep
  /-- `RD STATUS` (R126). -/
  | rdStatus
  /-- `RD CNT` (R127). -/
  | rdCnt
  /-- `RD RETRY` (R128). -/
  | rdRetry
  /-- `RD ERR_EXPECTED` (R129). -/
  | rdErrExpected
  /-- `RD ERR_ACTUAL` (R130). -/
  | rdErrActual
  /-- `RD PINCTL` (R131). -/
  | rdPinctl
  /-- `RD PM1_0` (R132). -/
  | rdPm1_0
  /-- `RD PM2_5` (R133). -/
  | rdPm2_5
  /-- `RD PM10` (R134). -/
  | rdPm10
  /-- `RD BUDGET` (R135). -/
  | rdBudget
  /-- `RD MEAS0` (R136). -/
  | rdMeas0
  /-- `RD MEAS1` (R137). -/
  | rdMeas1
  /-- `RD MEAS2` (R138). -/
  | rdMeas2
  /-- `RD MEAS3` (R139). -/
  | rdMeas3
  /-- `RD MEAS4` (R140). -/
  | rdMeas4
  /-- `RD MEAS5` (R141). -/
  | rdMeas5
  /-- `RD MEAS6` (R142). -/
  | rdMeas6
  /-- `RD MEAS7` (R143). -/
  | rdMeas7
  /-- `RD MEAS8` (R144). -/
  | rdMeas8
  /-- `RD MEAS9` (R145). -/
  | rdMeas9
  /-- `RD MEAS10` (R146). -/
  | rdMeas10
  /-- `RD MEAS11` (R147). -/
  | rdMeas11
  /-- `RD MEAS12` (R148). -/
  | rdMeas12
  /-- `RESET` with its ignored operand `d` (R64, R190); the bits are kept so that no bit of a word is lost:
  DESIGN CHOICE (log 9). -/
  | reset (d : Byte)
  deriving DecidableEq, Repr

end Sys2Proof
end

