-- ==== Sys2Proof/WellFormed.lean ====
section
/-! DEFINITION. Which event words are legal, read from 30_encoding.md R63, R64 and 10_state.md R22 as arithmetic on
the word's number, apart from the decoder. A term of `Instr` needs no check: its operand types (a byte of `RX`, the
ignored byte of `RESET`) admit exactly the operands the encoding admits. -/

namespace Sys2Proof

/-- The kind is not one of the reserved kinds `0x8` to `0xE` (R63). -/
def kindLegal (w : EventWord) : Bool :=
  let k := w.toNat / 256
  !(decide (0x8 ≤ k) && decide (k ≤ 0xE))

/-- An operand-less kind (`NOP`, `EMPTY`, `START`, `INIT`, `ACTIVE`, `SLEEP`) has operand `0x00` (R64). -/
def operandLegal (w : EventWord) : Bool :=
  let k := w.toNat / 256
  !([0x0, 0x2, 0x3, 0x4, 0x5, 0x6].contains k) || decide (w.toNat % 256 = 0)

/-- An `RD` names one of the 23 implemented addresses (R22). -/
def registerLegal (w : EventWord) : Bool :=
  let k := w.toNat / 256
  let a := w.toNat % 256
  !(decide (k = 0x7)) || decide (a ≤ 0x09) || (decide (0x10 ≤ a) && decide (a ≤ 0x1C))

/-- A legal event word: one that is an event of the opcode table (R63, R64, R66, R150). -/
def wellFormedWord (w : EventWord) : Bool :=
  kindLegal w && operandLegal w && registerLegal w

end Sys2Proof
end

