-- ==== Sys2Proof/Decode.lean ====
section
/-! DEFINITION. Decoding an event word in the order of 30_encoding.md R64, total on all 4096 words and rejecting the
reserved ones by name (R66, R150); the opcode table's rows; the encoder, written from R63 and 10_state.md R22. -/

namespace Sys2Proof

/-- `K = ev[11:8]` (R62). -/
def eventKind (w : EventWord) : BitVec 4 := w.extractLsb' 8 4

/-- `D = ev[7:0]` (R62). -/
def eventOperand (w : EventWord) : Byte := w.extractLsb' 0 8

/-- Why a word is no event of the opcode table. -/
inductive DecodeReject where
  /-- `K` is in `0x8` to `0xE` (R66). -/
  | reservedKind (k : BitVec 4)
  /-- an operand-less kind with `D` other than `0x00` (R66). -/
  | reservedOperand (k : BitVec 4) (d : Byte)
  /-- an `RD` of a reserved address (R150). -/
  | reservedRegister (a : Byte)
  deriving DecidableEq, Repr

/-- What a decoder reads from a word. -/
inductive Decoded where
  | instr (i : Instr)
  | rejected (r : DecodeReject)
  deriving DecidableEq, Repr

/-- The register an `RD` names (R22). -/
def decodeRead (a : Byte) : Decoded :=
  match a with
  | 0x00#8 => .instr .rdStatus
  | 0x01#8 => .instr .rdCnt
  | 0x02#8 => .instr .rdRetry
  | 0x03#8 => .instr .rdErrExpected
  | 0x04#8 => .instr .rdErrActual
  | 0x05#8 => .instr .rdPinctl
  | 0x06#8 => .instr .rdPm1_0
  | 0x07#8 => .instr .rdPm2_5
  | 0x08#8 => .instr .rdPm10
  | 0x09#8 => .instr .rdBudget
  | 0x10#8 => .instr .rdMeas0
  | 0x11#8 => .instr .rdMeas1
  | 0x12#8 => .instr .rdMeas2
  | 0x13#8 => .instr .rdMeas3
  | 0x14#8 => .instr .rdMeas4
  | 0x15#8 => .instr .rdMeas5
  | 0x16#8 => .instr .rdMeas6
  | 0x17#8 => .instr .rdMeas7
  | 0x18#8 => .instr .rdMeas8
  | 0x19#8 => .instr .rdMeas9
  | 0x1A#8 => .instr .rdMeas10
  | 0x1B#8 => .instr .rdMeas11
  | 0x1C#8 => .instr .rdMeas12
  | _ => .rejected (.reservedRegister a)

/-- A word of an operand-less kind: `i` if its operand is `0x00`, else reserved (R64). -/
def decodePlain (i : Instr) (k : BitVec 4) (d : Byte) : Decoded :=
  if d = 0x00 then .instr i else .rejected (.reservedOperand k d)

/-- Decoding by kind and operand (R64). -/
def decodeFields (k : BitVec 4) (d : Byte) : Decoded :=
  match k with
  | 0xF#4 => .instr (.reset d)
  | 0x0#4 => decodePlain .nop k d
  | 0x2#4 => decodePlain .empty k d
  | 0x3#4 => decodePlain .start k d
  | 0x4#4 => decodePlain .init k d
  | 0x5#4 => decodePlain .active k d
  | 0x6#4 => decodePlain .sleep k d
  | 0x1#4 => .instr (.rx d)
  | 0x7#4 => decodeRead d
  | _ => .rejected (.reservedKind k)

/-- The decoder (R62, R64). -/
def decode (w : EventWord) : Decoded :=
  decodeFields (eventKind w) (eventOperand w)

/-- One row of spec/opcode_table.json: a word belongs to it when `word AND mask = pattern` (R64). -/
structure OpcodeRow where
  mnemonic : String
  pattern : EventWord
  mask : EventWord
  deriving DecidableEq, Repr

/-- The row of an instruction (R64: operand-less kinds and `RD` registers fix all twelve bits, `RX` and `RESET`
the kind only). -/
def rowOf : Instr → OpcodeRow
  | .nop => ⟨"NOP", 0x000, 0xFFF⟩
  | .rx _ => ⟨"RX", 0x100, 0xF00⟩
  | .empty => ⟨"EMPTY", 0x200, 0xFFF⟩
  | .start => ⟨"START", 0x300, 0xFFF⟩
  | .init => ⟨"INIT", 0x400, 0xFFF⟩
  | .active => ⟨"ACTIVE", 0x500, 0xFFF⟩
  | .sleep => ⟨"SLEEP", 0x600, 0xFFF⟩
  | .rdStatus => ⟨"RD_STATUS", 0x700, 0xFFF⟩
  | .rdCnt => ⟨"RD_CNT", 0x701, 0xFFF⟩
  | .rdRetry => ⟨"RD_RETRY", 0x702, 0xFFF⟩
  | .rdErrExpected => ⟨"RD_ERR_EXPECTED", 0x703, 0xFFF⟩
  | .rdErrActual => ⟨"RD_ERR_ACTUAL", 0x704, 0xFFF⟩
  | .rdPinctl => ⟨"RD_PINCTL", 0x705, 0xFFF⟩
  | .rdPm1_0 => ⟨"RD_PM1_0", 0x706, 0xFFF⟩
  | .rdPm2_5 => ⟨"RD_PM2_5", 0x707, 0xFFF⟩
  | .rdPm10 => ⟨"RD_PM10", 0x708, 0xFFF⟩
  | .rdBudget => ⟨"RD_BUDGET", 0x709, 0xFFF⟩
  | .rdMeas0 => ⟨"RD_MEAS0", 0x710, 0xFFF⟩
  | .rdMeas1 => ⟨"RD_MEAS1", 0x711, 0xFFF⟩
  | .rdMeas2 => ⟨"RD_MEAS2", 0x712, 0xFFF⟩
  | .rdMeas3 => ⟨"RD_MEAS3", 0x713, 0xFFF⟩
  | .rdMeas4 => ⟨"RD_MEAS4", 0x714, 0xFFF⟩
  | .rdMeas5 => ⟨"RD_MEAS5", 0x715, 0xFFF⟩
  | .rdMeas6 => ⟨"RD_MEAS6", 0x716, 0xFFF⟩
  | .rdMeas7 => ⟨"RD_MEAS7", 0x717, 0xFFF⟩
  | .rdMeas8 => ⟨"RD_MEAS8", 0x718, 0xFFF⟩
  | .rdMeas9 => ⟨"RD_MEAS9", 0x719, 0xFFF⟩
  | .rdMeas10 => ⟨"RD_MEAS10", 0x71A, 0xFFF⟩
  | .rdMeas11 => ⟨"RD_MEAS11", 0x71B, 0xFFF⟩
  | .rdMeas12 => ⟨"RD_MEAS12", 0x71C, 0xFFF⟩
  | .reset _ => ⟨"RESET", 0xF00, 0xF00⟩

/-- `K ++ D` (R62). -/
def eventOf (k : BitVec 4) (d : Byte) : EventWord := k ++ d

/-- `ev = 0x700 + a` (R125). -/
def readWord (a : Byte) : EventWord := eventOf 0x7 a

/-- The word of an instruction (R63, R22). -/
def encode : Instr → EventWord
  | .nop => eventOf 0x0 0x00
  | .rx b => eventOf 0x1 b
  | .empty => eventOf 0x2 0x00
  | .start => eventOf 0x3 0x00
  | .init => eventOf 0x4 0x00
  | .active => eventOf 0x5 0x00
  | .sleep => eventOf 0x6 0x00
  | .rdStatus => readWord 0x00
  | .rdCnt => readWord 0x01
  | .rdRetry => readWord 0x02
  | .rdErrExpected => readWord 0x03
  | .rdErrActual => readWord 0x04
  | .rdPinctl => readWord 0x05
  | .rdPm1_0 => readWord 0x06
  | .rdPm2_5 => readWord 0x07
  | .rdPm10 => readWord 0x08
  | .rdBudget => readWord 0x09
  | .rdMeas0 => readWord 0x10
  | .rdMeas1 => readWord 0x11
  | .rdMeas2 => readWord 0x12
  | .rdMeas3 => readWord 0x13
  | .rdMeas4 => readWord 0x14
  | .rdMeas5 => readWord 0x15
  | .rdMeas6 => readWord 0x16
  | .rdMeas7 => readWord 0x17
  | .rdMeas8 => readWord 0x18
  | .rdMeas9 => readWord 0x19
  | .rdMeas10 => readWord 0x1A
  | .rdMeas11 => readWord 0x1B
  | .rdMeas12 => readWord 0x1C
  | .reset d => eventOf 0xF d

/-- The instruction read from the bits `w`, numbered as the opcode table numbers them. An event word has 12 bits,
so a number of 4096 or more is none, however many bits `_nbits` the row is given in whole bytes: DESIGN CHOICE (log 8). -/
def decodeTableWord (_nbits w : Nat) : Option Instr :=
  if w < 4096 then
    match decode (BitVec.ofNat 12 w) with
    | .instr i => some i
    | .rejected _ => none
  else none

end Sys2Proof
end

