-- ==== Sys2Proof/Config.lean ====
section
/-! DEFINITION. The implementation parameters of 00_scope.md R4: those the source fixes are constants, those it
leaves open are the fields of `Params`, with the spec's defaults. No value of the block is left undefined by the
spec, so there is no free value here. -/

namespace Sys2Proof

/-- `FRAME_LEN` (R4, fixed). -/
abbrev frameLen : Nat := 32

/-- `MARKER0` (R4, fixed). -/
abbrev marker0 : Byte := 0x42

/-- `MARKER1` (R4, fixed). -/
abbrev marker1 : Byte := 0x4D

/-- `LEN_EXPECTED` (R4, fixed). -/
abbrev lenExpected : Word := 28

/-- `CSUM_SPAN` (R4, fixed). -/
abbrev csumSpan : Nat := 30

/-- The open parameters of R4: fixed when the block is built, never written while it runs (R135, C11).
The index types carry the ranges R4 gives. -/
structure Params where
  /-- `RETRY_BUDGET`, 0 to 65535. -/
  retryBudget : Word
  /-- `IDX_PM1_0`, 0 to 12. -/
  idxPm1_0 : Fin 13
  /-- `IDX_PM2_5`, 0 to 12. -/
  idxPm2_5 : Fin 13
  /-- `IDX_PM10`, 0 to 12. -/
  idxPm10 : Fin 13
  deriving DecidableEq, Repr

/-- The defaults R4 states. -/
def Params.default : Params :=
  { retryBudget := 100, idxPm1_0 := 4, idxPm2_5 := 5, idxPm10 := 6 }

end Sys2Proof
end

