-- ==== Sys2Proof/Machine/State.lean ====
section
/-! DEFINITION. The state of the block (10_state.md R10), the outputs of the last step (00_scope.md R5), the events
still to be delivered and the build-time parameters; the reasons a step can stop; the state after reset (R190, R191). -/

namespace Sys2Proof.Machine

/-- `PHASE` (R11). Code 3 is never produced; R11 allows the three-valued type. DESIGN CHOICE (log 4). -/
inductive Phase where
  /-- no attempt in progress -/
  | idle
  /-- the marker has not been found -/
  | hunt
  /-- the marker has been found, bytes are appended -/
  | collect
  deriving DecidableEq, Repr

/-- `RESULT` (R12). Codes 5 to 7 are never produced; U12 allows the five-valued type. DESIGN CHOICE
(log 4). -/
inductive Result where
  | none
  | ok
  | timeout
  | lengthMismatch
  | checksumMismatch
  deriving DecidableEq, Repr

/-- The two typed errors `DECODE` raises, with their payload (R160, R162, R163). -/
inductive DecodeError where
  | lengthMismatch (expected actual : Word)
  | checksumMismatch (expected actual : Word)
  deriving DecidableEq, Repr

/-- The frame buffer `BUF` (R18, R40) as (offset, byte) cells: offsets strictly rising, no cell equal to what an
unlisted offset reads as. DESIGN CHOICE (log 5). -/
abbrev Memory := List Host.Cell

/-- Why the machine stops. -/
inductive Fault where
  /-- Raised by `storeBuf` (only `RX` in `COLLECT` can reach it): the write goes to an offset above 31, which R40 says
  does not exist. Safe: no state that meets the invariants of R15 does it, and the model stops there.
  DESIGN CHOICE (log 6). -/
  | bufferAddress
  deriving DecidableEq, Repr

/-- Why an instruction has no meaning. -/
inductive Refusal where
  /-- Raised by an arm of `exec` for an instruction that has no meaning yet; no arm does. Safe. -/
  | notModelled (mnemonic : String)
  deriving DecidableEq, Repr

/-- The machine. The first fourteen fields are the tuple of R10. DEDUCED (log 14): R10 says "543 bits in all", but the
widths of its tuple add up to 536; the tuple is followed. -/
structure State where
  /-- `PHASE` (R11). -/
  phase : Phase
  /-- `RESULT` (R12). -/
  result : Result
  /-- `MEAS_VALID` (R13). -/
  measValid : Bool
  /-- `FAULT`, sticky (R14). -/
  fault : Bool
  /-- `CNT` (R15). -/
  cnt : BitVec 6
  /-- `RETRY` (R16). -/
  retry : Word
  /-- `PREV` (R17). -/
  prev : Byte
  /-- `PREV_VALID` (R17). -/
  prevValid : Bool
  /-- `BUF[0..31]` (R18). -/
  buf : Memory
  /-- `MEAS[0..12]` (R19). -/
  meas : Vector Word 13
  /-- `ERR_EXPECTED` (R20). -/
  errExpected : Word
  /-- `ERR_ACTUAL` (R20). -/
  errActual : Word
  /-- `EN_CFG` (R21). -/
  enCfg : Bool
  /-- `EN_LEVEL` (R21). -/
  enLevel : Bool
  /-- output `pop` of the last step (R5). DESIGN CHOICE (log 3): latched here, no rule reads it. -/
  pop : Bool
  /-- output `rd_data` of the last step (R5). DESIGN CHOICE (log 3): latched here, no rule reads it. -/
  rdData : Word
  /-- the event words the environment has still to deliver, the next one first (R5, R6). DESIGN CHOICE (log 2). -/
  events : List EventWord
  /-- the parameters the block was built with (R4). DESIGN CHOICE (log 1): held here, never written. -/
  params : Params
  deriving DecidableEq, Repr

/-- The block right after reset (R190, R191), built with parameters `p`, with the events `es` still to come. -/
def State.resetWith (p : Params) (es : List EventWord) : State :=
  { phase := .idle, result := .none, measValid := false, fault := false
    cnt := 0, retry := 0, prev := 0x00, prevValid := false
    buf := [], meas := Vector.replicate 13 0x0000
    errExpected := 0x0000, errActual := 0x0000
    enCfg := false, enLevel := false
    pop := false, rdData := 0x0000
    events := es, params := p }

/-- The machine right after power-on (R191), with the default parameters of R4 and no event pending. -/
def State.reset : State := State.resetWith Params.default []

end Sys2Proof.Machine
end

