-- ==== Sys2Proof/Machine/Ops.lean ====
section
/-! DEFINITION. The named operations every meaning is made of: reading and writing `BUF`, the outputs of a step, the
use fault, opening and ending an attempt, the error entry of 60_exceptions.md R168, taking the next event. -/

namespace Sys2Proof.Machine

/-- What an offset with no cell reads as: the reset value of `BUF` (R18, R190; log 5). -/
abbrev unlistedByte : Byte := 0x00

/-- `MemRead(a, 1) = BUF[a]` (R9). -/
def readByte : Memory → Nat → Byte
  | [], _ => unlistedByte
  | (k, x) :: rest, a => if k = a then x else readByte rest a

/-- The cells of `m` but that of offset `a`. -/
def eraseCell (m : Memory) (a : Nat) : Memory := m.filter (fun c => c.1 != a)

/-- Put the cell `(a, v)` in front of the first cell with a greater offset. -/
def insertCell : Memory → Nat → Byte → Memory
  | [], a, v => [(a, v)]
  | (k, x) :: rest, a, v => if a < k then (a, v) :: (k, x) :: rest else (k, x) :: insertCell rest a v

/-- `MemWrite(a, 1, v)`, that is `BUF[a] <- v` (R9); the canonical form is kept. -/
def writeByte (m : Memory) (a : Nat) (v : Byte) : Memory :=
  if v = unlistedByte then eraseCell m a else insertCell (eraseCell m a) a v

/-- Offsets strictly rise. -/
def cellsRising : Memory → Bool
  | [] => true
  | [_] => true
  | c :: d :: rest => decide (c.1 < d.1) && cellsRising (d :: rest)

/-- The canonical form of `BUF`: offsets strictly rise, lie in 0 to 31 (R40), and no cell says what an unlisted
offset says. -/
def Memory.wf (m : Memory) : Bool :=
  cellsRising m && m.all (fun c => decide (c.1 < frameLen) && c.2 != unlistedByte)

/-- `BUF[a] <- v` at an offset that state gives; offsets above 31 do not exist (R40). -/
def storeBuf (a : Nat) (v : Byte) (s : State) : Except Fault State :=
  if a < frameLen then .ok { s with buf := writeByte s.buf a v } else .error .bufferAddress

/-- The outputs of a step (R5). -/
def respond (pop : Bool) (rdData : Word) (s : State) : State :=
  { s with pop := pop, rdData := rdData }

/-- A use fault: `FAULT <- 1`, `pop = 0`, `rd_data = 0x0000`, nothing else (R66, R80, R150, R164). -/
def useFault (s : State) : State :=
  respond false 0x0000 { s with fault := true }

/-- The result code of an error (R160). -/
def DecodeError.code : DecodeError → Result
  | .lengthMismatch _ _ => .lengthMismatch
  | .checksumMismatch _ _ => .checksumMismatch

/-- The `expected` member of an error (R160). -/
def DecodeError.expected : DecodeError → Word
  | .lengthMismatch e _ => e
  | .checksumMismatch e _ => e

/-- The `actual` member of an error (R160). -/
def DecodeError.actual : DecodeError → Word
  | .lengthMismatch _ a => a
  | .checksumMismatch _ a => a

/-- An attempt ends with result `r`: the part of error entry all three errors share (R161, R168). -/
def endAttempt (r : Result) (s : State) : State :=
  { s with phase := .idle, result := r }

/-- Error entry `raise <Error>(expected, actual)` (R168). -/
def raiseError (e : DecodeError) (s : State) : State :=
  { endAttempt e.code s with errExpected := e.expected, errActual := e.actual }

/-- `raise Timeout` (R161, R168): the payload registers are left as they are. -/
def raiseTimeout (s : State) : State := endAttempt .timeout s

/-- An accepted `START` (R80): the only way back from an error, which it clears (R170). -/
def openAttempt (s : State) : State :=
  { s with
    phase := .hunt, result := .none, cnt := 0, retry := 0
    prev := 0x00, prevValid := false, errExpected := 0x0000, errActual := 0x0000 }

/-- Every state element at its reset value (R190); the parameters and the environment's events are no state
elements (R10) and stay: DEDUCED (log 9). -/
def clearAll (s : State) : State := State.resetWith s.params s.events

/-- The event word of the next step. With no event pending nothing is asserted, which is `NOP`, word `0x000`
(R8, R149): DESIGN CHOICE (log 2). -/
def nextWord (s : State) : EventWord :=
  match s.events with
  | [] => 0x000
  | w :: _ => w

/-- The next event has been delivered. -/
def takeEvent (s : State) : State := { s with events := s.events.tail }

end Sys2Proof.Machine
end

