-- ==== Sys2Proof/Machine/Operands.lean ====
section
/-! DEFINITION. The 16-bit quantities `DECODE` assembles from the frame buffer (30_encoding.md R60, R61, 20_memory.md
R41, R44) and the checksum sum (41_decoder.md R102). -/

namespace Sys2Proof.Machine

/-- `be16(hi, lo) = zext_16(hi) * 256 + zext_16(lo)` (R9, R41). -/
def be16 (hi lo : Byte) : Word := hi.setWidth 16 * 256 + lo.setWidth 16

/-- `MemRead(k, 2) = be16(BUF[k], BUF[k+1])` (R9). -/
def readPair (m : Memory) (k : Nat) : Word := be16 (readByte m k) (readByte m (k + 1))

/-- The declared length, offsets 2 and 3 (R61). -/
def declaredLength (m : Memory) : Word := readPair m 2

/-- Measurement field `i`, offsets `4 + 2i` and `5 + 2i` (R61). -/
def fieldValue (m : Memory) (i : Nat) : Word := readPair m (4 + 2 * i)

/-- The stored checksum, offsets 30 and 31 (R61). -/
def storedChecksum (m : Memory) : Word := readPair m 30

/-- `BUF[0] + ... + BUF[n-1]`, each byte taken as an unsigned number (R9, R44). -/
def byteSum (m : Memory) : Nat → Nat
  | 0 => 0
  | n + 1 => byteSum m n + (readByte m n).toNat

/-- The computed checksum: the sum of bytes 0 to 29 modulo 65536 (R102). -/
def computedChecksum (m : Memory) : Word := BitVec.ofNat 16 (byteSum m csumSpan)

/-- The high byte of a word (R71). -/
def hiByte (w : Word) : Byte := w.extractLsb' 8 8

/-- The low byte of a word (R71). -/
def loByte (w : Word) : Byte := w.extractLsb' 0 8

end Sys2Proof.Machine
end

