-- ==== Sys2Proof/Machine/Flags.lean ====
section
/-! DEFINITION. The conditions the events test, the codes and register words that flags make up (10_state.md R11, R12,
R23, R24), and the level outputs, which are pure functions of the state (R29, 42_lifecycle.md R118). -/

namespace Sys2Proof.Machine

/-- The numeric code of `PHASE` (R11). -/
def Phase.code : Phase → BitVec 2
  | .idle => 0
  | .hunt => 1
  | .collect => 2

/-- The numeric code of `RESULT` (R12). -/
def Result.code : Result → BitVec 3
  | .none => 0
  | .ok => 1
  | .timeout => 2
  | .lengthMismatch => 3
  | .checksumMismatch => 4

/-- Byte `b` completes the marker (R82). -/
def isHit (s : State) (b : Byte) : Bool :=
  s.prevValid && decide (s.prev = marker0) && decide (b = marker1)

/-- The retry budget is spent (R85). -/
def budgetSpent (s : State) : Bool := decide (s.retry = s.params.retryBudget)

/-- `STATUS = zext_16(FAULT ++ MEAS_VALID ++ RESULT ++ PHASE)` (R23). -/
def statusWord (s : State) : Word :=
  (BitVec.ofBool s.fault ++ BitVec.ofBool s.measValid ++ s.result.code ++ s.phase.code).setWidth 16

/-- `PINCTL = zext_16(EN_LEVEL ++ EN_CFG)` (R24, R131). -/
def pinctlWord (s : State) : Word :=
  (BitVec.ofBool s.enLevel ++ BitVec.ofBool s.enCfg).setWidth 16

/-- `busy = (PHASE != IDLE)` (R29). -/
def busy (s : State) : Bool := decide (s.phase ≠ .idle)

/-- `rx_ready = (PHASE != IDLE)` (R29). -/
def rxReady (s : State) : Bool := decide (s.phase ≠ .idle)

/-- `en_oe = EN_CFG` (R29, R118). -/
def enOe (s : State) : Bool := s.enCfg

/-- `en_out = EN_LEVEL` (R29, R118). -/
def enOut (s : State) : Bool := s.enLevel

/-- The level the block drives on the enable pin; `none` while it does not drive it, where the level is a property of
the board (R118, U15): DESIGN CHOICE (log 13). -/
def drivenLevel (s : State) : Option Bool := if enOe s then some (enOut s) else none

end Sys2Proof.Machine
end

