-- ==== Sys2Proof/Machine/FrameDecoder.lean ====
section
/-! DEFINITION. The internal operation `DECODE` and its three parts (41_decoder.md R100 to R103). -/

namespace Sys2Proof.Machine

/-- `CHECK_LEN`: the declared length must be 28 (R101). -/
def checkLen (m : Memory) : Except DecodeError Unit :=
  if declaredLength m ≠ lenExpected then .error (.lengthMismatch lenExpected (declaredLength m)) else .ok ()

/-- `CHECK_SUM`: the stored checksum must equal the computed one (R102; which is `expected` and which `actual`: D12). -/
def checkSum (m : Memory) : Except DecodeError Unit :=
  if computedChecksum m ≠ storedChecksum m then
    .error (.checksumMismatch (computedChecksum m) (storedChecksum m))
  else .ok ()

/-- Both checks, the length first; the first that fails is the error (R100, R166). -/
def validate (m : Memory) : Except DecodeError Unit :=
  match checkLen m with
  | .error e => .error e
  | .ok () => checkSum m

/-- `EXTRACT`: all 13 fields at once (R103). -/
def extractFields (s : State) : State :=
  { s with
    meas := Vector.ofFn (fun i : Fin 13 => fieldValue s.buf i.val)
    measValid := true, result := .ok }

/-- `DECODE` (R100): `PHASE <- IDLE`, then the checks, then the extraction. -/
def decodeFrame (s : State) : State :=
  let t : State := { s with phase := .idle }
  match validate t.buf with
  | .error e => raiseError e t
  | .ok () => extractFields t

end Sys2Proof.Machine
end

