-- ==== Sys2Proof/Machine/Assembler.lean ====
section
/-! DEFINITION. The frame assembler's events `START`, `RX`, `EMPTY` (40_assembler.md R80 to R85). -/

namespace Sys2Proof.Machine

/-- `START` (R80). -/
def execStart (s : State) : Host.Outcome State Fault Refusal :=
  if s.phase = .idle then .next (respond false 0x0000 (openAttempt s)) else .next (useFault s)

/-- A byte consumed in `HUNT` becomes the look-back byte (R17, R82). -/
def notePrev (b : Byte) (s : State) : State := { s with prev := b, prevValid := true }

/-- The hit step stores the marker and begins to collect (R82). -/
def recordHit (s : State) : State :=
  { s with buf := writeByte (writeByte s.buf 0 marker0) 1 marker1, cnt := 2, phase := .collect }

/-- `RX b` in `HUNT` (R82). -/
def rxHunt (b : Byte) (s : State) : State :=
  let t := respond true 0x0000 (notePrev b s)
  if isHit s b then recordHit t else t

/-- One more byte of the frame has been stored (R83); below 2, where no run comes, as the rule reads: DEDUCED
(log 11). -/
def countByte (s : State) : State := { s with cnt := s.cnt + 1 }

/-- `RX b` in `COLLECT` (R83): append at `CNT`; the 32nd byte runs `DECODE`. -/
def rxCollect (b : Byte) (s : State) : Host.Outcome State Fault Refusal :=
  match storeBuf s.cnt.toNat b s with
  | .error f => .fault f
  | .ok t =>
    let u := respond true 0x0000 (countByte t)
    .next (if u.cnt = 32 then decodeFrame u else u)

/-- `RX b` (R81 in `IDLE`: the byte is not taken). -/
def execRx (b : Byte) (s : State) : Host.Outcome State Fault Refusal :=
  match s.phase with
  | .idle => .next (respond false 0x0000 s)
  | .hunt => .next (rxHunt b s)
  | .collect => rxCollect b s

/-- One empty poll is charged to the attempt (R85). Above the budget, where no run comes, it counts on and wraps:
DEDUCED (log 11). -/
def chargePoll (s : State) : State := { s with retry := s.retry + 1 }

/-- `EMPTY` (R84 in `IDLE`: nothing; R85 else). -/
def execEmpty (s : State) : Host.Outcome State Fault Refusal :=
  let t := respond false 0x0000 s
  if s.phase = .idle then .next t
  else if budgetSpent s then .next (raiseTimeout t)
  else .next (chargePoll t)

end Sys2Proof.Machine
end

