-- ==== Sys2Proof/Machine/HostAccess.lean ====
section
/-! DEFINITION. Host access (43_host_access.md): `NOP`, `RD` of each implemented register, and the use faults that
words outside the opcode table take (R66, R150). -/

namespace Sys2Proof.Machine

/-- `RD` in general (R125): `rd_data` is the register's content at the start of the step, `pop = 0`, no state
changes. -/
def answerRead (v : Word) (s : State) : Host.Outcome State Fault Refusal :=
  .next (respond false v s)

/-- `NOP` (R149). -/
def execNop (s : State) : Host.Outcome State Fault Refusal := .next (respond false 0x0000 s)

/-- `RD STATUS` (R126). -/
def execRdStatus (s : State) : Host.Outcome State Fault Refusal := answerRead (statusWord s) s

/-- `RD CNT` (R127). -/
def execRdCnt (s : State) : Host.Outcome State Fault Refusal := answerRead (s.cnt.setWidth 16) s

/-- `RD RETRY` (R128). -/
def execRdRetry (s : State) : Host.Outcome State Fault Refusal := answerRead s.retry s

/-- `RD ERR_EXPECTED` (R129). -/
def execRdErrExpected (s : State) : Host.Outcome State Fault Refusal := answerRead s.errExpected s

/-- `RD ERR_ACTUAL` (R130). -/
def execRdErrActual (s : State) : Host.Outcome State Fault Refusal := answerRead s.errActual s

/-- `RD PINCTL` (R131). -/
def execRdPinctl (s : State) : Host.Outcome State Fault Refusal := answerRead (pinctlWord s) s

/-- `RD PM1_0` (R132). -/
def execRdPm1_0 (s : State) : Host.Outcome State Fault Refusal := answerRead s.meas[s.params.idxPm1_0] s

/-- `RD PM2_5` (R133). -/
def execRdPm2_5 (s : State) : Host.Outcome State Fault Refusal := answerRead s.meas[s.params.idxPm2_5] s

/-- `RD PM10` (R134). -/
def execRdPm10 (s : State) : Host.Outcome State Fault Refusal := answerRead s.meas[s.params.idxPm10] s

/-- `RD BUDGET` (R135). -/
def execRdBudget (s : State) : Host.Outcome State Fault Refusal := answerRead s.params.retryBudget s

/-- `RD MEAS0` (R136). -/
def execRdMeas0 (s : State) : Host.Outcome State Fault Refusal := answerRead s.meas[0] s

/-- `RD MEAS1` (R137). -/
def execRdMeas1 (s : State) : Host.Outcome State Fault Refusal := answerRead s.meas[1] s

/-- `RD MEAS2` (R138). -/
def execRdMeas2 (s : State) : Host.Outcome State Fault Refusal := answerRead s.meas[2] s

/-- `RD MEAS3` (R139). -/
def execRdMeas3 (s : State) : Host.Outcome State Fault Refusal := answerRead s.meas[3] s

/-- `RD MEAS4` (R140). -/
def execRdMeas4 (s : State) : Host.Outcome State Fault Refusal := answerRead s.meas[4] s

/-- `RD MEAS5` (R141). -/
def execRdMeas5 (s : State) : Host.Outcome State Fault Refusal := answerRead s.meas[5] s

/-- `RD MEAS6` (R142). -/
def execRdMeas6 (s : State) : Host.Outcome State Fault Refusal := answerRead s.meas[6] s

/-- `RD MEAS7` (R143). -/
def execRdMeas7 (s : State) : Host.Outcome State Fault Refusal := answerRead s.meas[7] s

/-- `RD MEAS8` (R144). -/
def execRdMeas8 (s : State) : Host.Outcome State Fault Refusal := answerRead s.meas[8] s

/-- `RD MEAS9` (R145). -/
def execRdMeas9 (s : State) : Host.Outcome State Fault Refusal := answerRead s.meas[9] s

/-- `RD MEAS10` (R146). -/
def execRdMeas10 (s : State) : Host.Outcome State Fault Refusal := answerRead s.meas[10] s

/-- `RD MEAS11` (R147). -/
def execRdMeas11 (s : State) : Host.Outcome State Fault Refusal := answerRead s.meas[11] s

/-- `RD MEAS12` (R148). -/
def execRdMeas12 (s : State) : Host.Outcome State Fault Refusal := answerRead s.meas[12] s

/-- A reserved event word (R66). -/
def execReservedWord (s : State) : Host.Outcome State Fault Refusal := .next (useFault s)

/-- `RD` of a reserved address (R150). -/
def execReservedRead (_a : Byte) (s : State) : Host.Outcome State Fault Refusal := .next (useFault s)

/-- The effect of a word the decoder rejects (R66, R150, R164). -/
def takeReserved (r : DecodeReject) (s : State) : Host.Outcome State Fault Refusal :=
  match r with
  | .reservedKind _ => execReservedWord s
  | .reservedOperand _ _ => execReservedWord s
  | .reservedRegister a => execReservedRead a s

end Sys2Proof.Machine
end

