-- ==== Sys2Proof/Machine/Lifecycle.lean ====
section
/-! DEFINITION. The lifecycle events `INIT`, `ACTIVE`, `SLEEP` (42_lifecycle.md R115 to R117). -/

namespace Sys2Proof.Machine

/-- `EN_CFG <- v` (R21). -/
def setEnCfg (v : Bool) (s : State) : State := { s with enCfg := v }

/-- `EN_LEVEL <- v` (R21). -/
def setEnLevel (v : Bool) (s : State) : State := { s with enLevel := v }

/-- `INIT` (R115). -/
def execInit (s : State) : Host.Outcome State Fault Refusal :=
  .next (respond false 0x0000 (setEnCfg true s))

/-- `ACTIVE` (R116). -/
def execActive (s : State) : Host.Outcome State Fault Refusal :=
  .next (respond false 0x0000 (setEnLevel true s))

/-- `SLEEP` (R117). -/
def execSleep (s : State) : Host.Outcome State Fault Refusal :=
  .next (respond false 0x0000 (setEnLevel false s))

end Sys2Proof.Machine
end

