-- ==== Sys2Proof/Machine/Reset.lean ====
section
/-! DEFINITION. The event `RESET` (70_reset_and_hazards.md R190). -/

namespace Sys2Proof.Machine

/-- `RESET` (R190): every state element to its reset value, `pop = 0`, `rd_data = 0x0000`. -/
def execReset (s : State) : Host.Outcome State Fault Refusal :=
  .next (respond false 0x0000 (clearAll s))

end Sys2Proof.Machine
end

