-- ==== Sys2Proof/Machine/Dispatch.lean ====
section
/-! DEFINITION. One arm per constructor of `Instr`, each one direct call of its meaning. -/

namespace Sys2Proof.Machine

def exec (i : Instr) (s : State) : Host.Outcome State Fault Refusal :=
  match i with
  | .nop => Sys2Proof.Machine.execNop s
  | .rx b => Sys2Proof.Machine.execRx b s
  | .empty => Sys2Proof.Machine.execEmpty s
  | .start => Sys2Proof.Machine.execStart s
  | .init => Sys2Proof.Machine.execInit s
  | .active => Sys2Proof.Machine.execActive s
  | .sleep => Sys2Proof.Machine.execSleep s
  | .rdStatus => Sys2Proof.Machine.execRdStatus s
  | .rdCnt => Sys2Proof.Machine.execRdCnt s
  | .rdRetry => Sys2Proof.Machine.execRdRetry s
  | .rdErrExpected => Sys2Proof.Machine.execRdErrExpected s
  | .rdErrActual => Sys2Proof.Machine.execRdErrActual s
  | .rdPinctl => Sys2Proof.Machine.execRdPinctl s
  | .rdPm1_0 => Sys2Proof.Machine.execRdPm1_0 s
  | .rdPm2_5 => Sys2Proof.Machine.execRdPm2_5 s
  | .rdPm10 => Sys2Proof.Machine.execRdPm10 s
  | .rdBudget => Sys2Proof.Machine.execRdBudget s
  | .rdMeas0 => Sys2Proof.Machine.execRdMeas0 s
  | .rdMeas1 => Sys2Proof.Machine.execRdMeas1 s
  | .rdMeas2 => Sys2Proof.Machine.execRdMeas2 s
  | .rdMeas3 => Sys2Proof.Machine.execRdMeas3 s
  | .rdMeas4 => Sys2Proof.Machine.execRdMeas4 s
  | .rdMeas5 => Sys2Proof.Machine.execRdMeas5 s
  | .rdMeas6 => Sys2Proof.Machine.execRdMeas6 s
  | .rdMeas7 => Sys2Proof.Machine.execRdMeas7 s
  | .rdMeas8 => Sys2Proof.Machine.execRdMeas8 s
  | .rdMeas9 => Sys2Proof.Machine.execRdMeas9 s
  | .rdMeas10 => Sys2Proof.Machine.execRdMeas10 s
  | .rdMeas11 => Sys2Proof.Machine.execRdMeas11 s
  | .rdMeas12 => Sys2Proof.Machine.execRdMeas12 s
  | .reset _ => Sys2Proof.Machine.execReset s

end Sys2Proof.Machine
end

