-- ==== Sys2Proof/Machine/Step.lean ====
section
/-! DEFINITION. One step: deliver the next event, decode its word, run its meaning; a word the decoder rejects takes
its use fault (00_scope.md R5, 30_encoding.md R64, R66). -/

namespace Sys2Proof.Machine

/-- One event per step (R5). -/
def step (s : State) : Host.Outcome State Fault Refusal :=
  match decode (nextWord s) with
  | .instr i => exec i (takeEvent s)
  | .rejected r => takeReserved r (takeEvent s)

/-- `s` with the event of word `w` delivered next. A number of 4096 or more is no event word (R62) and changes
nothing; an event word has no bits beyond its twelve, whatever `_nbits` says: DESIGN CHOICE (logs 2, 8). -/
def State.withFetchWord (s : State) (_nbits w : Nat) : State :=
  if w < 4096 then { s with events := BitVec.ofNat 12 w :: s.events } else s

end Sys2Proof.Machine
end

