-- ==== Sys2Proof/Machine/Asm.lean ====
section
/-! DEFINITION. The written form of events (30_encoding.md R69), the pseudo-instructions and their expansions (R70),
and the frame builder `mkframe` (R71). A line is a list of characters; its expansion is a list of event words. -/

namespace Sys2Proof.Machine

/-- The sum of a list of bytes, each taken as an unsigned number (R71). -/
def listSum : List Byte → Nat
  | [] => 0
  | b :: rest => b.toNat + listSum rest

/-- The 30 bytes of a well-formed frame before its checksum (R71). -/
def frameBody (f : Vector Word 13) : List Byte :=
  [marker0, marker1, 0x00, 0x1C] ++ f.toList.flatMap (fun w => [hiByte w, loByte w])

/-- `mkframe(f0, ..., f12)` (R71). -/
def mkframe (f : Vector Word 13) : List Byte :=
  let c : Word := BitVec.ofNat 16 (listSum (frameBody f))
  frameBody f ++ [hiByte c, loByte c]

/-- `CHUNK b0 b1 ...` (R70). -/
def chunk (bs : List Byte) : List EventWord := bs.map (fun b => encode (.rx b))

/-- `IDLE n` (R70). -/
def idlePolls (n : Nat) : List EventWord := List.replicate n (encode .empty)

/-- `FRAME f0 f1 ... f12` (R70). -/
def frameEvents (f : Vector Word 13) : List EventWord := chunk (mkframe f)

/-- `MEASURE` (R70): the stream events between `START` and `RD STATUS` are the environment's. -/
def measureEvents (stream : List EventWord) : List EventWord :=
  [encode .start] ++ stream ++ [encode .rdStatus]

/-- `RD_ALL` (R70). -/
def rdAll : List EventWord := (List.range 13).map (fun i => readWord (BitVec.ofNat 8 (0x10 + i)))

/-- The register names of R69 with their addresses (R22). -/
def registerNames : List (List Char × Byte) :=
  [("STATUS".toList, 0x00), ("CNT".toList, 0x01), ("RETRY".toList, 0x02), ("ERR_EXPECTED".toList, 0x03),
   ("ERR_ACTUAL".toList, 0x04), ("PINCTL".toList, 0x05), ("PM1_0".toList, 0x06), ("PM2_5".toList, 0x07),
   ("PM10".toList, 0x08), ("BUDGET".toList, 0x09)]
  ++ [("MEAS0".toList, 0x10), ("MEAS1".toList, 0x11), ("MEAS2".toList, 0x12), ("MEAS3".toList, 0x13),
   ("MEAS4".toList, 0x14), ("MEAS5".toList, 0x15), ("MEAS6".toList, 0x16), ("MEAS7".toList, 0x17),
   ("MEAS8".toList, 0x18), ("MEAS9".toList, 0x19), ("MEAS10".toList, 0x1A), ("MEAS11".toList, 0x1B),
   ("MEAS12".toList, 0x1C)]

/-- The value of a digit in base 16; a decimal digit is one below 10. -/
def digitValue (c : Char) : Option Nat :=
  let n := c.toNat
  if 48 ≤ n ∧ n ≤ 57 then some (n - 48)
  else if 65 ≤ n ∧ n ≤ 70 then some (n - 55)
  else if 97 ≤ n ∧ n ≤ 102 then some (n - 87)
  else none

/-- Digits of base `base` read after a number `acc`. -/
def readDigits (base : Nat) : List Char → Nat → Option Nat
  | [], acc => some acc
  | c :: rest, acc =>
    match digitValue c with
    | some d => if d < base then readDigits base rest (acc * base + d) else none
    | none => none

/-- A number: `0x` and hexadecimal digits, or decimal digits (R9). -/
def readNumber (t : List Char) : Option Nat :=
  match t with
  | [] => none
  | '0' :: 'x' :: [] => none
  | '0' :: 'x' :: rest => readDigits 16 rest 0
  | _ => readDigits 10 t 0

/-- A number of `w` bits. -/
def readBits (w : Nat) (t : List Char) : Option (BitVec w) :=
  match readNumber t with
  | some n => if n < 2 ^ w then some (BitVec.ofNat w n) else none
  | none => none

/-- The words of a line up to a comment sign (R69); `cur` holds the word being read, last character first. -/
def lineWords : List Char → List Char → List (List Char)
  | [], cur => if cur = [] then [] else [cur.reverse]
  | c :: rest, cur =>
    let done := if cur = [] then [] else [cur.reverse]
    if c = ';' then done
    else if c = ' ' ∨ c = '\t' then done ++ lineWords rest []
    else lineWords rest (c :: cur)

/-- All of a list's items, or nothing. -/
def allSome {α : Type} : List (Option α) → Option (List α)
  | [] => some []
  | none :: _ => none
  | some x :: rest => (allSome rest).map (x :: ·)

/-- Thirteen fields. -/
def thirteen : List Word → Option (Vector Word 13)
  | [a, b, c, d, e, f, g, h, i, j, k, l, m] => some #v[a, b, c, d, e, f, g, h, i, j, k, l, m]
  | _ => none

/-- The operand of `RD`: a register name or a number (R69). -/
def readAddress (t : List Char) : Option Byte :=
  match registerNames.find? (fun p => p.1 == t) with
  | some p => some p.2
  | none => readBits 8 t

/-- An event without operand, by name (R69), or `RD_ALL` (R70). -/
def plainLine (t : List Char) : Option (List EventWord) :=
  if t = "NOP".toList then some [encode .nop]
  else if t = "EMPTY".toList then some [encode .empty]
  else if t = "START".toList then some [encode .start]
  else if t = "INIT".toList then some [encode .init]
  else if t = "ACTIVE".toList then some [encode .active]
  else if t = "SLEEP".toList then some [encode .sleep]
  else if t = "RESET".toList then some [encode (.reset 0x00)]
  else if t = "RD_ALL".toList then some rdAll
  else none

/-- An event or pseudo-instruction with one operand or more (R69, R70). -/
def operandLine (t : List Char) (args : List (List Char)) : Option (List EventWord) :=
  if t = "CHUNK".toList then (allSome (args.map (readBits 8))).map chunk
  else if t = "FRAME".toList then ((allSome (args.map (readBits 16))).bind thirteen).map frameEvents
  else
    match args with
    | [x] =>
      if t = "RX".toList then (readBits 8 x).map (fun b => [encode (.rx b)])
      else if t = "RD".toList then (readAddress x).map (fun a => [readWord a])
      else if t = ".word".toList then (readBits 12 x).map (fun w => [w])
      else if t = "IDLE".toList then (readNumber x).map idlePolls
      else none
    | _ => none

/-- One line of a program (R69, R70): the event words it stands for, `none` where it is not of that form. `MEASURE`
has no line, since its stream events are the environment's (`measureEvents`). DESIGN CHOICE (log 12): blanks are spaces
and tabs, names are read letter for letter. -/
def parseLine (line : List Char) : Option (List EventWord) :=
  match lineWords line [] with
  | [] => some []
  | [t] => plainLine t
  | t :: args => operandLine t args

end Sys2Proof.Machine
end

