-- ==== Sys2Proof/Machine/Ports.lean ====
section
/-! DEFINITION. The block's ports (00_scope.md R8): the inputs of one clock cycle, the events they stand for in the
order of 60_exceptions.md R167, and the outputs (10_state.md R29). -/

namespace Sys2Proof.Machine

/-- The input ports in one clock cycle (R8). -/
structure Inputs where
  rst : Bool
  cmdValid : Bool
  cmd : BitVec 4
  rdValid : Bool
  rdAddr : Byte
  rxValid : Bool
  rxData : Byte
  tick : Bool
  deriving DecidableEq, Repr

/-- The output ports (R8). -/
structure Outputs where
  rdData : Word
  rxReady : Bool
  busy : Bool
  enOe : Bool
  enOut : Bool
  deriving DecidableEq, Repr

/-- The stream event of a cycle: a byte offered, else an elapsed wait; a tick with a byte is no `EMPTY` (R8, R204). -/
def streamEvents (p : Inputs) : List EventWord :=
  if p.rxValid then [encode (.rx p.rxData)]
  else if p.tick then [encode .empty]
  else []

/-- The inputs asserted in a cycle as consecutive events: `RESET`, command, `RD`, stream (R167).
DEDUCED: any `cmd` makes the word of kind `cmd` with operand `0x00` (log 7); `rst` makes the word `0xF00` (log 10). -/
def assertedEvents (p : Inputs) : List EventWord :=
  (if p.rst then [encode (.reset 0x00)] else [])
  ++ (if p.cmdValid then [eventOf p.cmd 0x00] else [])
  ++ (if p.rdValid then [readWord p.rdAddr] else [])
  ++ streamEvents p

/-- The events of a cycle; a cycle with nothing asserted is `NOP` (R8). -/
def cycleEvents (p : Inputs) : List EventWord :=
  match assertedEvents p with
  | [] => [encode .nop]
  | es => es

/-- Deliver events before those already pending. -/
def deliver (es : List EventWord) (s : State) : State := { s with events := es ++ s.events }

/-- The inputs of a cycle are delivered (R8, R167). -/
def applyInputs (p : Inputs) (s : State) : State := deliver (cycleEvents p) s

/-- The output ports of a state; `rd_data` is that of the last step (R8, R29). -/
def outputs (s : State) : Outputs :=
  { rdData := s.rdData, rxReady := rxReady s, busy := busy s, enOe := enOe s, enOut := enOut s }

end Sys2Proof.Machine
end

