-- ==== Sys2Proof/Safety.lean ====
section
/-! DEFINITION. The terms claims use: the invariants the spec states of the state (10_state.md R11 to R20), the run
of a list of events, and the predicates on frames and streams that 40_assembler.md and 41_decoder.md speak of. -/

namespace Sys2Proof

open Sys2Proof.Machine

/-- The invariants of the block. Each field cites the rule of 10_state.md it comes from. -/
structure Inv (s : State) : Prop where
  /-- `BUF` is in canonical form, with offsets 0 to 31 only (R18, R40). -/
  bufWf : Memory.wf s.buf = true
  /-- a result is recorded only while no attempt is in progress (R12). -/
  resultIdle : s.result ≠ .none → s.phase = .idle
  /-- R15. -/
  cntHunt : s.phase = .hunt → s.cnt = 0
  /-- R15. -/
  cntCollect : s.phase = .collect → 2 ≤ s.cnt.toNat ∧ s.cnt.toNat ≤ 31
  /-- R15. -/
  cntDecoded : s.result = .ok ∨ s.result = .lengthMismatch ∨ s.result = .checksumMismatch → s.cnt = 32
  /-- R15. -/
  cntTimeout : s.result = .timeout → s.cnt = 0 ∨ (2 ≤ s.cnt.toNat ∧ s.cnt.toNat ≤ 31)
  /-- with no result and no attempt, the block is as reset left it (R12, R15, R190). -/
  cntNone : s.phase = .idle → s.result = .none → s.cnt = 0
  /-- R16. -/
  retryBound : s.retry.toNat ≤ s.params.retryBudget.toNat
  /-- `RETRY` equals the budget after a time-out (R85, R128). -/
  retryTimeout : s.result = .timeout → s.retry = s.params.retryBudget
  /-- look-back that is not valid holds `0x00` (R17). -/
  prevClear : s.prevValid = false → s.prev = 0x00
  /-- once the marker is found it stands in `BUF` and was the last thing scanned (R82, R100, R107). -/
  marker : 2 ≤ s.cnt.toNat →
    readByte s.buf 0 = 0x42 ∧ readByte s.buf 1 = 0x4D ∧ s.prevValid = true ∧ s.prev = 0x4D
  /-- `MEAS` holds zeros until a first measurement (R13, R19). -/
  measClear : s.measValid = false → ∀ i : Fin 13, s.meas[i] = 0x0000
  /-- R13, R103: a frame that passed both checks is published whole. -/
  okPublished : s.result = .ok → s.measValid = true ∧ declaredLength s.buf = 28 ∧
    computedChecksum s.buf = storedChecksum s.buf ∧ ∀ i : Fin 13, s.meas[i] = fieldValue s.buf i.val
  /-- R20. -/
  errZero : s.result ≠ .lengthMismatch → s.result ≠ .checksumMismatch →
    s.errExpected = 0x0000 ∧ s.errActual = 0x0000
  /-- R20, R101. -/
  errLength : s.result = .lengthMismatch →
    s.errExpected = 28 ∧ s.errActual = declaredLength s.buf ∧ s.errActual ≠ 28
  /-- R20, R102, R105. -/
  errChecksum : s.result = .checksumMismatch →
    s.errExpected = computedChecksum s.buf ∧ s.errActual = storedChecksum s.buf ∧
    s.errActual ≠ s.errExpected ∧ 171 ≤ s.errExpected.toNat ∧ s.errExpected.toNat ≤ 6801

/-- Deliver the events `es` and run exactly their steps. -/
def runEvents (es : List EventWord) (s : State) : Host.Outcome State Fault Refusal :=
  Host.Core.run Sys2Proof.core es.length (deliver es s)

/-- The host has used the block as specified so far (60_exceptions.md R164). -/
def usedCorrectly (s : State) : Prop := s.fault = false

/-- The state without the latched outputs of its last step (R5, R10). -/
def withoutOutputs (s : State) : State := respond false 0x0000 s

/-- An `RD` of an implemented register: the events that answer with data (R5, R125). -/
def isRead (i : Instr) : Bool :=
  match i with
  | .nop => false
  | .rx _ => false
  | .empty => false
  | .start => false
  | .init => false
  | .active => false
  | .sleep => false
  | .rdStatus => true
  | .rdCnt => true
  | .rdRetry => true
  | .rdErrExpected => true
  | .rdErrActual => true
  | .rdPinctl => true
  | .rdPm1_0 => true
  | .rdPm2_5 => true
  | .rdPm10 => true
  | .rdBudget => true
  | .rdMeas0 => true
  | .rdMeas1 => true
  | .rdMeas2 => true
  | .rdMeas3 => true
  | .rdMeas4 => true
  | .rdMeas5 => true
  | .rdMeas6 => true
  | .rdMeas7 => true
  | .rdMeas8 => true
  | .rdMeas9 => true
  | .rdMeas10 => true
  | .rdMeas11 => true
  | .rdMeas12 => true
  | .reset _ => false

/-- The bytes hold the marker pair somewhere (R82, R90). -/
def holdsMarker (bs : List Byte) : Prop :=
  ∃ before after : List Byte, bs = before ++ [0x42, 0x4D] ++ after

/-- A buffer that passes both checks (R101, R102). -/
def validFrame (m : Memory) : Prop :=
  declaredLength m = 28 ∧ computedChecksum m = storedChecksum m

/-- A stretch of the stream: each item is a byte offered or, for `none`, an elapsed poll without one (R6). -/
def streamWords (xs : List (Option Byte)) : List EventWord :=
  xs.map (fun x =>
    match x with
    | some b => encode (.rx b)
    | none => encode .empty)

/-- Two buffers that differ at offset `k` and nowhere else. -/
def differOnlyAt (k : Nat) (m n : Memory) : Prop :=
  readByte m k ≠ readByte n k ∧ ∀ a, a ≠ k → readByte m a = readByte n a

/-- The result `DECODE` gives the buffer `m` (R100). -/
def verdict (m : Memory) : Result :=
  match validate m with
  | .error e => e.code
  | .ok () => .ok

/-- The phase after event `i`, as the transition table R86 gives it. -/
def nextPhase (i : Instr) (s : State) : Phase :=
  match s.phase, i with
  | _, .reset _ => .idle
  | .idle, .start => .hunt
  | .hunt, .rx b => if s.prevValid = true ∧ s.prev = 0x42 ∧ b = 0x4D then .collect else .hunt
  | .hunt, .empty => if s.retry = s.params.retryBudget then .idle else .hunt
  | .collect, .rx _ => if s.cnt = 31 then .idle else .collect
  | .collect, .empty => if s.retry = s.params.retryBudget then .idle else .collect
  | p, _ => p

end Sys2Proof
end

