-- ==== Sys2Proof/Certificates/Slice0/Obligations.lean ====
section
/-! DEFINITION. The statements for the provers, each from the numbered rules of spec/. -/

open Sys2Proof Sys2Proof.Machine

/-! ### Encoding and decoding -/

/-- 30_encoding.md R62 to R64: no bit of an encoding is dropped. -/
def Obligations.DecodeUndoesEncode : Prop :=
  ∀ i : Instr, decode (encode i) = .instr i

/-- R62 to R64, the other direction: an accepted word is the word of the instruction read from it. -/
def Obligations.EncodeUndoesDecode : Prop :=
  ∀ (w : EventWord) (i : Instr), decode w = .instr i → encode i = w

/-- R64: the order of decoding, and the pattern and mask of each row of the opcode table. -/
def Obligations.DecodingFollowsTheOpcodeTable : Prop :=
  (∀ w : EventWord, eventKind w = 0xF → decode w = .instr (.reset (eventOperand w))) ∧
  (∀ w : EventWord, eventKind w ∈ [0x0#4, 0x2#4, 0x3#4, 0x4#4, 0x5#4, 0x6#4] → eventOperand w ≠ 0x00 →
    ∃ r, decode w = .rejected r) ∧
  (∀ w : EventWord, eventKind w = 0x1 → decode w = .instr (.rx (eventOperand w))) ∧
  (∀ w : EventWord, eventKind w = 0x7 →
    (∃ i, isRead i = true ∧ decode w = .instr i) ∨ decode w = .rejected (.reservedRegister (eventOperand w))) ∧
  (∀ (w : EventWord) (i : Instr), decode w = .instr i → w &&& (rowOf i).mask = (rowOf i).pattern) ∧
  (∀ (w : EventWord) (i : Instr), w &&& (rowOf i).mask = (rowOf i).pattern →
    ∃ j, decode w = .instr j ∧ rowOf j = rowOf i)

/-- R63, R66, R150: the decoder accepts exactly the legal words, as `wellFormedWord` reads them from R63 and R22. -/
def Obligations.DecoderAcceptsExactlyTheLegalWords : Prop :=
  ∀ w : EventWord, (∃ i, decode w = .instr i) ↔ wellFormedWord w = true

/-- Words written out from R63 and R22, one or more of each family. -/
def Obligations.WordsOfTheSpecDecode : Prop :=
  decode 0x000 = .instr .nop ∧ decode 0x142 = .instr (.rx 0x42) ∧ decode 0x1FF = .instr (.rx 0xFF) ∧
  decode 0x200 = .instr .empty ∧ decode 0x300 = .instr .start ∧ decode 0x400 = .instr .init ∧
  decode 0x500 = .instr .active ∧ decode 0x600 = .instr .sleep ∧ decode 0x700 = .instr .rdStatus ∧
  decode 0x709 = .instr .rdBudget ∧ decode 0x71C = .instr .rdMeas12 ∧ decode 0xF5A = .instr (.reset 0x5A) ∧
  decode 0x8AB = .rejected (.reservedKind 0x8) ∧ decode 0x301 = .rejected (.reservedOperand 0x3 0x01) ∧
  decode 0x71D = .rejected (.reservedRegister 0x1D)

/-! ### The step -/

/-- 00_scope.md R5: a step runs the event its word decodes to, and nothing else happens around it but that the event
is no longer pending. -/
def Obligations.StepRunsTheDecodedEvent : Prop :=
  ∀ (s : State) (w : EventWord) (rest : List EventWord) (i : Instr),
    s.events = w :: rest → decode w = .instr i → step s = exec i { s with events := rest }

/-- R8: nothing asserted is `NOP`. That an empty list of pending events stands for it is the model's choice (log 2). -/
def Obligations.StepWithNothingPendingIsNop : Prop :=
  ∀ s : State, s.events = [] → step s = .next { s with pop := false, rdData := 0x0000 }

/-- R66. -/
def Obligations.ReservedWordOnlySetsFault : Prop :=
  ∀ (s : State) (w : EventWord) (rest : List EventWord), s.events = w :: rest →
    ((0x8 ≤ (eventKind w).toNat ∧ (eventKind w).toNat ≤ 0xE) ∨
      (eventKind w ∈ [0x0#4, 0x2#4, 0x3#4, 0x4#4, 0x5#4, 0x6#4] ∧ eventOperand w ≠ 0x00)) →
    step s = .next { s with events := rest, fault := true, pop := false, rdData := 0x0000 }

/-- 43_host_access.md R150. -/
def Obligations.ReservedReadOnlySetsFault : Prop :=
  ∀ (s : State) (a : Byte) (rest : List EventWord), s.events = eventOf 0x7 a :: rest →
    ((0x0A ≤ a.toNat ∧ a.toNat ≤ 0x0F) ∨ 0x1D ≤ a.toNat) →
    step s = .next { s with events := rest, fault := true, pop := false, rdData := 0x0000 }

/-- R5: every event word has a defined effect in every state that meets the invariants of 10_state.md. -/
def Obligations.EveryEventHasAnEffect : Prop :=
  ∀ s : State, Inv s → ∃ t, step s = .next t

/-! ### The frame assembler -/

/-- 40_assembler.md R80. -/
def Obligations.StartOpensAnAttemptOrIsRefused : Prop :=
  decode 0x300 = .instr .start ∧
  ∀ s : State,
    (s.phase = .idle → exec .start s = .next { s with
      phase := .hunt, result := .none, cnt := 0, retry := 0, prev := 0x00, prevValid := false
      errExpected := 0x0000, errActual := 0x0000, pop := false, rdData := 0x0000 }) ∧
    (s.phase ≠ .idle → exec .start s = .next { s with fault := true, pop := false, rdData := 0x0000 })

/-- R81. -/
def Obligations.RxWhileIdleIsNotTaken : Prop :=
  (∀ b : Byte, decode (0x100 + b.setWidth 12) = .instr (.rx b)) ∧
  ∀ (b : Byte) (s : State), s.phase = .idle →
    exec (.rx b) s = .next { s with pop := false, rdData := 0x0000 }

/-- R82; a hit stores the marker at offsets 0 and 1 and nowhere else. -/
def Obligations.RxWhileHuntingScansForTheMarker : Prop :=
  (∀ b : Byte, decode (0x100 + b.setWidth 12) = .instr (.rx b)) ∧
  ∀ (b : Byte) (s : State), s.phase = .hunt →
    (¬(s.prevValid = true ∧ s.prev = 0x42 ∧ b = 0x4D) →
      exec (.rx b) s = .next { s with prev := b, prevValid := true, pop := true, rdData := 0x0000 }) ∧
    (s.prevValid = true ∧ s.prev = 0x42 ∧ b = 0x4D → ∃ m : Memory,
      exec (.rx b) s = .next { s with
        buf := m, cnt := 2, phase := .collect, prev := b, prevValid := true, pop := true, rdData := 0x0000 } ∧
      readByte m 0 = 0x42 ∧ readByte m 1 = 0x4D ∧ ∀ a, a ≠ 0 → a ≠ 1 → readByte m a = readByte s.buf a)

/-- R83; the byte goes to offset `CNT` and nowhere else, and `DECODE` runs when `CNT` becomes 32. -/
def Obligations.RxWhileCollectingAppends : Prop :=
  (∀ b : Byte, decode (0x100 + b.setWidth 12) = .instr (.rx b)) ∧
  ∀ (b : Byte) (s : State), s.phase = .collect → s.cnt.toNat ≤ 31 → ∃ m : Memory,
    readByte m s.cnt.toNat = b ∧ (∀ a, a ≠ s.cnt.toNat → readByte m a = readByte s.buf a) ∧
    (s.cnt ≠ 31 → exec (.rx b) s = .next { s with buf := m, cnt := s.cnt + 1, pop := true, rdData := 0x0000 }) ∧
    (s.cnt = 31 → exec (.rx b) s =
      .next (decodeFrame { s with buf := m, cnt := 32, pop := true, rdData := 0x0000 }))

/-- 41_decoder.md R101, R102, R103, R166: what `DECODE` does to any buffer, the length check first. The declared
length, the two checksums and the fields are written out as R61 and R102 give them. -/
def Obligations.DecodeChecksThenPublishes : Prop :=
  ∀ (s : State) (declared stored computed : Word),
    declared = be16 (readByte s.buf 2) (readByte s.buf 3) →
    stored = be16 (readByte s.buf 30) (readByte s.buf 31) →
    computed = BitVec.ofNat 16 (∑ k ∈ Finset.range 30, (readByte s.buf k).toNat) →
    (declared ≠ 28 → decodeFrame s = { s with
      phase := .idle, result := .lengthMismatch, errExpected := 28, errActual := declared }) ∧
    (declared = 28 → computed ≠ stored → decodeFrame s = { s with
      phase := .idle, result := .checksumMismatch, errExpected := computed, errActual := stored }) ∧
    (declared = 28 → computed = stored → ∃ v : Vector Word 13,
      (∀ i : Fin 13, v[i] = be16 (readByte s.buf (4 + 2 * i.val)) (readByte s.buf (5 + 2 * i.val))) ∧
      decodeFrame s = { s with phase := .idle, result := .ok, measValid := true, meas := v })

/-- R84. -/
def Obligations.EmptyWhileIdleDoesNothing : Prop :=
  decode 0x200 = .instr .empty ∧
  ∀ s : State, s.phase = .idle → exec .empty s = .next { s with pop := false, rdData := 0x0000 }

/-- R85. -/
def Obligations.EmptyChargesThePollOrTimesOut : Prop :=
  decode 0x200 = .instr .empty ∧
  ∀ s : State, s.phase ≠ .idle →
    (s.retry ≠ s.params.retryBudget →
      exec .empty s = .next { s with retry := s.retry + 1, pop := false, rdData := 0x0000 }) ∧
    (s.retry = s.params.retryBudget →
      exec .empty s = .next { s with phase := .idle, result := .timeout, pop := false, rdData := 0x0000 })

/-- R86: the transition table of `PHASE`, with the results and the fault it names. -/
def Obligations.PhaseFollowsTheTransitionTable : Prop :=
  (∀ (i : Instr) (s t : State), exec i s = .next t →
    t.phase = nextPhase i s ∧
    (i = .empty → s.phase ≠ .idle → t.phase = .idle → t.result = .timeout) ∧
    (∀ b, i = .rx b → s.phase = .collect → t.phase = .idle →
      t.result = .ok ∨ t.result = .lengthMismatch ∨ t.result = .checksumMismatch) ∧
    (i = .start → s.phase ≠ .idle → t.fault = true)) ∧
  (∀ (r : DecodeReject) (s t : State), takeReserved r s = .next t → t.phase = s.phase)

/-- 20_memory.md R55: outside `RESET`, only `RX` writes `BUF`: at `CNT` while collecting, at 0 and 1 on a hit. -/
def Obligations.BufferIsWrittenOnlyInOrder : Prop :=
  ∀ (i : Instr) (s t : State), exec i s = .next t → (∀ d, i ≠ .reset d) →
    ∀ a, readByte t.buf a ≠ readByte s.buf a → ∃ b, i = .rx b ∧
      ((s.phase = .collect ∧ a = s.cnt.toNat) ∨
       (s.phase = .hunt ∧ t.phase = .collect ∧ (a = 0 ∨ a = 1)))

/-- The model's choice (log 6): an append at an offset R40 says does not exist stops the machine. -/
def Obligations.AppendOutsideTheBufferStops : Prop :=
  ∀ (b : Byte) (s : State), s.phase = .collect → 32 ≤ s.cnt.toNat →
    exec (.rx b) s = .fault .bufferAddress

/-- R85: an attempt tolerates `RETRY_BUDGET` empty polls and fails on the next, whatever the budget. -/
def Obligations.BudgetIsToleratedThenTimesOut : Prop :=
  ∀ (s : State) (n : Nat), s.phase ≠ .idle →
    (s.retry.toNat + n ≤ s.params.retryBudget.toNat → ∃ t, runEvents (idlePolls n) s = .next t ∧
      withoutOutputs t = { withoutOutputs s with retry := s.retry + BitVec.ofNat 16 n }) ∧
    (s.retry.toNat + n = s.params.retryBudget.toNat → ∃ t, runEvents (idlePolls (n + 1)) s = .next t ∧
      withoutOutputs t = { withoutOutputs s with
        phase := .idle, result := .timeout, retry := s.params.retryBudget })

/-- R89: a marker split by empty polls within the budget is still found. -/
def Obligations.SplitMarkerIsFound : Prop :=
  ∀ (s : State) (n : Nat), s.phase = .hunt → s.prevValid = true → s.prev = 0x42 →
    s.retry.toNat + n ≤ s.params.retryBudget.toNat →
    ∃ t, runEvents (idlePolls n ++ chunk [0x4D]) s = .next t ∧ t.phase = .collect ∧ t.cnt = 2 ∧
      readByte t.buf 0 = 0x42 ∧ readByte t.buf 1 = 0x4D ∧ t.retry = s.retry + BitVec.ofNat 16 n

/-- R90, R202: bytes that hold no marker never end a hunt, however many they are; nor do they with empty polls among
them, as long as the polls stay within the budget. -/
def Obligations.HuntWithoutMarkerNeverEnds : Prop :=
  (∀ (s : State) (bs : List Byte), s.phase = .hunt → s.prevValid = false → ¬ holdsMarker bs →
    ∃ t, runEvents (chunk bs) s = .next t ∧ t.phase = .hunt ∧ t.cnt = s.cnt ∧ t.retry = s.retry ∧
      t.result = s.result ∧ t.buf = s.buf ∧ t.events = s.events) ∧
  (∀ (s : State) (xs : List (Option Byte)), s.phase = .hunt → s.prevValid = false →
    ¬ holdsMarker (xs.filterMap id) → s.retry.toNat + xs.count none ≤ s.params.retryBudget.toNat →
    ∃ t, runEvents (streamWords xs) s = .next t ∧ t.phase = .hunt ∧ t.cnt = s.cnt ∧
      t.retry = s.retry + BitVec.ofNat 16 (xs.count none) ∧
      t.result = s.result ∧ t.buf = s.buf ∧ t.events = s.events)

/-- R42, R91, R203: from `CNT = c` in `COLLECT`, `32 - c` bytes end the attempt; each lies where it was received. -/
def Obligations.CollectingEndsWithTheThirtySecondByte : Prop :=
  ∀ (s : State) (bs : List Byte), s.phase = .collect → bs ≠ [] → s.cnt.toNat + bs.length = 32 →
    ∃ t, runEvents (chunk bs) s = .next t ∧ t.phase = .idle ∧ t.cnt = 32 ∧
      t.result = verdict t.buf ∧ t.events = s.events ∧
      (∀ (k : Nat) (b : Byte), bs[k]? = some b → readByte t.buf (s.cnt.toNat + k) = b) ∧
      (∀ a, a < s.cnt.toNat → readByte t.buf a = readByte s.buf a)

/-- 30_encoding.md R71: `START` and a well-formed frame give its 13 fields, for every choice of them. -/
def Obligations.WellFormedFrameIsMeasured : Prop :=
  ∀ (s : State) (f : Vector Word 13), s.phase = .idle →
    (∃ t, runEvents (encode .start :: chunk (mkframe f)) s = .next t ∧
      t.phase = .idle ∧ t.result = .ok ∧ t.measValid = true ∧ t.cnt = 32 ∧
      (∀ i : Fin 13, t.meas[i] = f[i]) ∧ t.events = s.events) ∧
    (∃ hi lo : Byte, ∃ body : List Byte, mkframe f = body ++ [hi, lo] ∧ body.length = 30 ∧
      body.take 4 = [0x42, 0x4D, 0x00, 0x1C] ∧
      (∀ i : Fin 13, body[4 + 2 * i.val]? = some (f[i].extractLsb' 8 8) ∧
        body[5 + 2 * i.val]? = some (f[i].extractLsb' 0 8)) ∧
      be16 hi lo = BitVec.ofNat 16 (body.map BitVec.toNat).sum)

/-- R92 and the source's first property: bytes that hold no marker, then a well-formed frame, give that frame's
fields, and no byte after the frame is taken. -/
def Obligations.FrameAfterNoiseIsMeasured : Prop :=
  ∀ (s : State) (noise : List Byte) (f : Vector Word 13) (b : Byte), s.phase = .idle → ¬ holdsMarker noise →
    ∃ t, runEvents (encode .start :: chunk (noise ++ mkframe f)) s = .next t ∧
      t.phase = .idle ∧ t.result = .ok ∧ (∀ i : Fin 13, t.meas[i] = f[i]) ∧
      exec (.rx b) t = .next { t with pop := false, rdData := 0x0000 }

/-! ### The checksum -/

/-- R105. -/
def Obligations.ChecksumStaysInRange : Prop :=
  (∀ m : Memory, (∑ k ∈ Finset.range 30, (readByte m k).toNat) ≤ 7650 ∧
    (computedChecksum m).toNat = ∑ k ∈ Finset.range 30, (readByte m k).toNat) ∧
  (∀ m : Memory, readByte m 0 = 0x42 → readByte m 1 = 0x4D → readByte m 2 = 0x00 → readByte m 3 = 0x1C →
    171 ≤ (computedChecksum m).toNat ∧ (computedChecksum m).toNat ≤ 6801 ∧
    ((storedChecksum m).toNat < 171 ∨ 6801 < (storedChecksum m).toNat → computedChecksum m ≠ storedChecksum m))

/-- R106: only the multiset of the 30 bytes counts, and a change of one byte changes the sum by as much. -/
def Obligations.ChecksumIgnoresOrderButNotOneChange : Prop :=
  (∀ m n : Memory, ((List.range 30).map (readByte m)).Perm ((List.range 30).map (readByte n)) →
    computedChecksum m = computedChecksum n) ∧
  (∀ (m n : Memory) (k : Nat), k < 30 → differOnlyAt k m n →
    (computedChecksum n).toNat + (readByte m k).toNat = (computedChecksum m).toNat + (readByte n k).toNat ∧
    computedChecksum m ≠ computedChecksum n)

/-- R108: which error one corrupted byte of a well-formed frame gives, offsets 2 to 31. -/
def Obligations.OneCorruptedByteIsRejected : Prop :=
  ∀ (m n : Memory) (k : Nat), validFrame m → differOnlyAt k m n →
    ((k = 2 ∨ k = 3) → verdict n = .lengthMismatch) ∧
    (4 ≤ k ∧ k ≤ 31 → verdict n = .checksumMismatch)

/-! ### The enable pin -/

/-- 42_lifecycle.md R115. -/
def Obligations.InitConfiguresThePin : Prop :=
  decode 0x400 = .instr .init ∧
  ∀ s : State, ∃ t : State,
    t = { s with enCfg := true, pop := false, rdData := 0x0000 } ∧
    exec .init s = .next t ∧ exec .init t = .next t ∧ drivenLevel t = some s.enLevel

/-- R116. -/
def Obligations.ActiveRaisesThePin : Prop :=
  decode 0x500 = .instr .active ∧
  ∀ s : State, ∃ t : State,
    t = { s with enLevel := true, pop := false, rdData := 0x0000 } ∧
    exec .active s = .next t ∧ exec .active t = .next t ∧
    drivenLevel t = (if s.enCfg then some true else none)

/-- R117. -/
def Obligations.SleepLowersThePin : Prop :=
  decode 0x600 = .instr .sleep ∧
  ∀ s : State, ∃ t : State,
    t = { s with enLevel := false, pop := false, rdData := 0x0000 } ∧
    exec .sleep s = .next t ∧ exec .sleep t = .next t ∧
    drivenLevel t = (if s.enCfg then some false else none)

/-- R119: the pin bits influence nothing but the pin bits (and the answer of `RD PINCTL`), and the lifecycle events
write nothing but the pin bits. -/
def Obligations.FramePathIgnoresThePin : Prop :=
  (∀ (i : Instr) (s t : State) (c l : Bool), i ≠ .rdPinctl → exec i s = .next t →
    ∃ t' : State, exec i { s with enCfg := c, enLevel := l } = .next t' ∧
      t = { t' with enCfg := t.enCfg, enLevel := t.enLevel }) ∧
  (∀ (i : Instr) (s t : State), i = .init ∨ i = .active ∨ i = .sleep → exec i s = .next t →
    t = { s with enCfg := t.enCfg, enLevel := t.enLevel, pop := false, rdData := 0x0000 })

/-! ### Host access -/

/-- R149: `NOP` does nothing, in any phase, and may be dropped from any sequence of events without changing the
result. -/
def Obligations.NopDoesNothingAndMayBeDropped : Prop :=
  decode 0x000 = .instr .nop ∧
  (∀ s : State, exec .nop s = .next { s with pop := false, rdData := 0x0000 }) ∧
  (∀ (es : List EventWord) (s t : State), runEvents es s = .next t →
    ∃ t', runEvents (es.filter (fun w => w != 0x000)) s = .next t' ∧ withoutOutputs t' = withoutOutputs t)

/-- R125: a read of an implemented register answers, with no effect on any state. -/
def Obligations.ReadsAnswerAndChangeNothing : Prop :=
  ∀ (i : Instr) (s : State), isRead i = true →
    ∃ v : Word, exec i s = .next { s with pop := false, rdData := v }

/-- R126, R23: the fields of `STATUS`. -/
def Obligations.RdStatusShowsTheFields : Prop :=
  decode 0x700 = .instr .rdStatus ∧
  ∀ s : State, ∃ v : Word, exec .rdStatus s = .next { s with pop := false, rdData := v } ∧
    v.extractLsb' 0 2 = (match s.phase with | .idle => 0 | .hunt => 1 | .collect => 2) ∧
    v.extractLsb' 2 3 = (match s.result with
      | .none => 0 | .ok => 1 | .timeout => 2 | .lengthMismatch => 3 | .checksumMismatch => 4) ∧
    v.getLsbD 5 = s.measValid ∧ v.getLsbD 6 = s.fault ∧ v.extractLsb' 7 9 = 0 ∧
    (s = State.reset → v = 0x0000)

/-- R127, with the values R15 allows. -/
def Obligations.RdCntShowsTheByteCount : Prop :=
  decode 0x701 = .instr .rdCnt ∧
  ∀ s : State, exec .rdCnt s = .next { s with pop := false, rdData := s.cnt.setWidth 16 } ∧
    (Inv s → s.cnt.toNat ≤ 32 ∧ s.cnt.toNat ≠ 1 ∧
      (s.result = .ok ∨ s.result = .lengthMismatch ∨ s.result = .checksumMismatch →
        (s.cnt.setWidth 16 : Word) = 32) ∧
      (s.result = .timeout → s.cnt.toNat = 0 ∨ (2 ≤ s.cnt.toNat ∧ s.cnt.toNat ≤ 31)))

/-- R128. -/
def Obligations.RdRetryShowsThePolls : Prop :=
  decode 0x702 = .instr .rdRetry ∧
  ∀ s : State, exec .rdRetry s = .next { s with pop := false, rdData := s.retry } ∧
    (Inv s → s.retry.toNat ≤ s.params.retryBudget.toNat ∧
      (s.result = .timeout → s.retry = s.params.retryBudget))

/-- R129, R130, with the values R20 allows. -/
def Obligations.RdErrShowsThePayload : Prop :=
  decode 0x703 = .instr .rdErrExpected ∧ decode 0x704 = .instr .rdErrActual ∧
  ∀ s : State,
    exec .rdErrExpected s = .next { s with pop := false, rdData := s.errExpected } ∧
    exec .rdErrActual s = .next { s with pop := false, rdData := s.errActual } ∧
    (Inv s →
      (s.result = .lengthMismatch → s.errExpected = 0x001C ∧
        s.errActual = be16 (readByte s.buf 2) (readByte s.buf 3) ∧ s.errActual ≠ 28) ∧
      (s.result = .checksumMismatch → s.errExpected = computedChecksum s.buf ∧
        171 ≤ s.errExpected.toNat ∧ s.errExpected.toNat ≤ 6801 ∧
        s.errActual = be16 (readByte s.buf 30) (readByte s.buf 31) ∧ s.errActual ≠ s.errExpected) ∧
      (s.result ≠ .lengthMismatch → s.result ≠ .checksumMismatch → s.errExpected = 0 ∧ s.errActual = 0))

/-- R131, R24: the fields of `PINCTL`. -/
def Obligations.RdPinctlShowsThePinBits : Prop :=
  decode 0x705 = .instr .rdPinctl ∧
  ∀ s : State, ∃ v : Word, exec .rdPinctl s = .next { s with pop := false, rdData := v } ∧
    v.getLsbD 0 = s.enCfg ∧ v.getLsbD 1 = s.enLevel ∧ v.extractLsb' 2 14 = 0

/-- R132, R133, R134, R111: the named values are read out of `MEAS` at the configured indices. -/
def Obligations.NamedReadsFollowTheIndices : Prop :=
  decode 0x706 = .instr .rdPm1_0 ∧ decode 0x707 = .instr .rdPm2_5 ∧ decode 0x708 = .instr .rdPm10 ∧
  ∀ s : State,
    exec .rdPm1_0 s = .next { s with pop := false, rdData := s.meas[s.params.idxPm1_0] } ∧
    exec .rdPm2_5 s = .next { s with pop := false, rdData := s.meas[s.params.idxPm2_5] } ∧
    exec .rdPm10 s = .next { s with pop := false, rdData := s.meas[s.params.idxPm10] } ∧
    (s.params = Params.default →
      exec .rdPm1_0 s = exec .rdMeas4 s ∧ exec .rdPm2_5 s = exec .rdMeas5 s ∧ exec .rdPm10 s = exec .rdMeas6 s)

/-- R135: `BUDGET` answers the parameter, and no event changes any parameter. -/
def Obligations.BudgetIsReadAndNeverChanges : Prop :=
  decode 0x709 = .instr .rdBudget ∧
  (∀ s : State, exec .rdBudget s = .next { s with pop := false, rdData := s.params.retryBudget }) ∧
  (∀ (s t : State), step s = .next t → t.params = s.params)

/-- R136 to R142; after a good frame the values are those of the frame offsets the rules name. -/
def Obligations.RdMeas0To6ShowTheFields : Prop :=
  decode 0x710 = .instr .rdMeas0 ∧ decode 0x711 = .instr .rdMeas1 ∧ decode 0x712 = .instr .rdMeas2 ∧
  decode 0x713 = .instr .rdMeas3 ∧ decode 0x714 = .instr .rdMeas4 ∧ decode 0x715 = .instr .rdMeas5 ∧
  decode 0x716 = .instr .rdMeas6 ∧
  ∀ s : State,
    exec .rdMeas0 s = .next { s with pop := false, rdData := s.meas[0] } ∧
    exec .rdMeas1 s = .next { s with pop := false, rdData := s.meas[1] } ∧
    exec .rdMeas2 s = .next { s with pop := false, rdData := s.meas[2] } ∧
    exec .rdMeas3 s = .next { s with pop := false, rdData := s.meas[3] } ∧
    exec .rdMeas4 s = .next { s with pop := false, rdData := s.meas[4] } ∧
    exec .rdMeas5 s = .next { s with pop := false, rdData := s.meas[5] } ∧
    exec .rdMeas6 s = .next { s with pop := false, rdData := s.meas[6] } ∧
    (Inv s → s.result = .ok → ∀ j : Fin 13, j.val ≤ 6 →
      s.meas[j] = be16 (readByte s.buf (4 + 2 * j.val)) (readByte s.buf (5 + 2 * j.val)))

/-- R143 to R148; after a good frame the values are those of the frame offsets the rules name. -/
def Obligations.RdMeas7To12ShowTheFields : Prop :=
  decode 0x717 = .instr .rdMeas7 ∧ decode 0x718 = .instr .rdMeas8 ∧ decode 0x719 = .instr .rdMeas9 ∧
  decode 0x71A = .instr .rdMeas10 ∧ decode 0x71B = .instr .rdMeas11 ∧ decode 0x71C = .instr .rdMeas12 ∧
  ∀ s : State,
    exec .rdMeas7 s = .next { s with pop := false, rdData := s.meas[7] } ∧
    exec .rdMeas8 s = .next { s with pop := false, rdData := s.meas[8] } ∧
    exec .rdMeas9 s = .next { s with pop := false, rdData := s.meas[9] } ∧
    exec .rdMeas10 s = .next { s with pop := false, rdData := s.meas[10] } ∧
    exec .rdMeas11 s = .next { s with pop := false, rdData := s.meas[11] } ∧
    exec .rdMeas12 s = .next { s with pop := false, rdData := s.meas[12] } ∧
    (Inv s → s.result = .ok → ∀ j : Fin 13, 7 ≤ j.val →
      s.meas[j] = be16 (readByte s.buf (4 + 2 * j.val)) (readByte s.buf (5 + 2 * j.val)))

/-- R5, R8, R49: a byte is taken exactly when one is offered and `rx_ready` is 1; only a read answers data. -/
def Obligations.OutputsOfOneEvent : Prop :=
  ∀ (i : Instr) (s t : State), exec i s = .next t →
    (t.pop = true ↔ (∃ b, i = .rx b) ∧ rxReady s = true) ∧ (isRead i = false → t.rdData = 0x0000)

/-! ### Errors and what they leave alone -/

/-- 60_exceptions.md R177: an attempt (`START`, then any events but `RESET` and another accepted `START`) that has not
ended in `OK` leaves the last good measurement as it was before. A `START` that comes while the attempt runs is
refused (R80) and allowed here. -/
def Obligations.FailedAttemptKeepsTheMeasurement : Prop :=
  ∀ (es : List EventWord) (s t : State), s.phase = .idle →
    (∀ w ∈ es, eventKind w ≠ 0xF) →
    (∀ (before after : List EventWord) (u : State), es = before ++ encode .start :: after →
      runEvents (encode .start :: before) s = .next u → u.phase ≠ .idle) →
    runEvents (encode .start :: es) s = .next t → t.result ≠ .ok →
    t.meas = s.meas ∧ t.measValid = s.measValid

/-- 10_state.md R19, 20_memory.md R48: outside `RESET`, the bank is replaced only whole, by the byte that completes a
frame which passes both checks. -/
def Obligations.MeasurementIsReplacedOnlyWhole : Prop :=
  ∀ (i : Instr) (s t : State), exec i s = .next t → (∀ d, i ≠ .reset d) →
    (t.meas = s.meas ∧ t.measValid = s.measValid) ∨
    ((∃ b, i = .rx b) ∧ s.phase = .collect ∧ s.cnt = 31 ∧ t.phase = .idle ∧ t.result = .ok ∧
      t.measValid = true ∧ validFrame t.buf ∧ ∀ j : Fin 13, t.meas[j] = fieldValue t.buf j.val)

/-- R14, R164: which steps set `FAULT`, which clear it, and that nothing but `RD STATUS` reads it. -/
def Obligations.FaultIsStickyAndHarmless : Prop :=
  (∀ (s t : State), step s = .next t →
    (t.fault = true ↔
      match decode (nextWord s) with
      | .instr (.reset _) => False
      | .instr .start => s.fault = true ∨ s.phase ≠ .idle
      | .instr _ => s.fault = true
      | .rejected _ => True)) ∧
  (∀ (i : Instr) (s t : State) (v : Bool), i ≠ .rdStatus → exec i s = .next t →
    ∃ t' : State, exec i { s with fault := v } = .next t' ∧ t = { t' with fault := t.fault })

/-- R170, R197: in `IDLE` nothing but `START` and `RESET` changes the outcome, the measurement or any other element
than the pin bits. -/
def Obligations.OutcomeStaysUntilStartOrReset : Prop :=
  ∀ (i : Instr) (s t : State), s.phase = .idle → i ≠ .start → (∀ d, i ≠ .reset d) → exec i s = .next t →
    t = { s with pop := t.pop, rdData := t.rdData, enCfg := t.enCfg, enLevel := t.enLevel }

/-- 70_reset_and_hazards.md R195, R203: an attempt ends by the empty poll over the budget, by the 32nd byte, or by
`RESET`, and by nothing else. -/
def Obligations.AttemptEndsOnlyAsSpecified : Prop :=
  ∀ (i : Instr) (s t : State), s.phase ≠ .idle → exec i s = .next t → t.phase = .idle →
    (i = .empty ∧ s.retry = s.params.retryBudget ∧ t.result = .timeout) ∨
    ((∃ b, i = .rx b) ∧ s.phase = .collect ∧ s.cnt = 31 ∧ t.cnt = 32 ∧ t.result = verdict t.buf) ∨
    ((∃ d, i = .reset d) ∧ t.result = .none)

/-- 10_state.md R31, R18: the hidden elements `PREV`, `PREV_VALID` and `BUF` show in no output of any event. -/
def Obligations.HiddenStateShowsInNoOutput : Prop :=
  ∀ (i : Instr) (s t : State) (p : Byte) (v : Bool) (m : Memory), exec i s = .next t →
    ∃ t' : State, exec i { s with prev := p, prevValid := v, buf := m } = .next t' ∧
      t'.pop = t.pop ∧ t'.rdData = t.rdData

/-- 20_memory.md R54: no byte of the stream acts as a command or changes a parameter. -/
def Obligations.BytesAreOnlyData : Prop :=
  ∀ (b : Byte) (s t : State), exec (.rx b) s = .next t →
    t.fault = s.fault ∧ t.retry = s.retry ∧ t.enCfg = s.enCfg ∧ t.enLevel = s.enLevel ∧
    t.params = s.params ∧ t.events = s.events ∧
    (s.phase = .idle → t = { s with pop := false, rdData := 0x0000 })

/-! ### Reset and the invariant -/

/-- 70_reset_and_hazards.md R190; afterwards every host register reads 0 but `BUDGET`, the pin is not driven, and no
other event clears `FAULT`, `MEAS_VALID` or `MEAS` or abandons an attempt with no result. -/
def Obligations.ResetClearsEveryElement : Prop :=
  (∀ w, eventKind w = 0xF → decode w = .instr (.reset (eventOperand w))) ∧
  (∀ (d : Byte) (s : State), ∃ t : State, exec (.reset d) s = .next t ∧
    t.phase = .idle ∧ t.result = .none ∧ t.measValid = false ∧ t.fault = false ∧ t.cnt = 0 ∧ t.retry = 0 ∧
    t.prev = 0x00 ∧ t.prevValid = false ∧ (∀ k, readByte t.buf k = 0x00) ∧ (∀ i : Fin 13, t.meas[i] = 0x0000) ∧
    t.errExpected = 0x0000 ∧ t.errActual = 0x0000 ∧ t.enCfg = false ∧ t.enLevel = false ∧
    enOe t = false ∧ enOut t = false ∧ t.pop = false ∧ t.rdData = 0x0000 ∧
    (∀ i, isRead i = true → exec i t =
      .next { t with rdData := if i = .rdBudget then s.params.retryBudget else 0x0000 })) ∧
  (∀ (i : Instr) (s t : State), exec i s = .next t →
    (s.fault = true ∧ t.fault = false) ∨ (s.measValid = true ∧ t.measValid = false) ∨
      (t.meas ≠ s.meas ∧ t.result ≠ .ok) ∨ (s.phase ≠ .idle ∧ t.phase = .idle ∧ t.result = .none) →
    ∃ d, i = .reset d)

/-- The model's choice (log 9): `RESET` leaves the parameters and the events still to come as they are, whatever its
operand. -/
def Obligations.ResetKeepsParametersAndEvents : Prop :=
  ∀ (d : Byte) (s : State), ∃ t : State, exec (.reset d) s = .next t ∧
    t = State.resetWith s.params s.events ∧ t.params = s.params ∧ t.events = s.events

/-- From R191, on the whole of the model's `State`. The parameters and the pending events are the model's fields (logs
1 and 2), `RESET` leaves them alone by the model's choice (log 9), and so is the value of the latched outputs before
the first step (log 3). -/
def Obligations.PowerOnEqualsReset : Prop :=
  ∀ (d : Byte) (s : State), s.params = Params.default → s.events = [] →
    exec (.reset d) s = .next State.reset

/-- The invariants hold right after reset, whatever the parameters and the events to come. -/
def Obligations.ResetMeetsTheInvariants : Prop :=
  (∀ (p : Params) (es : List EventWord), Inv (State.resetWith p es)) ∧ Inv State.reset

/-- 10_state.md R11 to R20: every step keeps the invariants. -/
def Obligations.EveryStepKeepsTheInvariants : Prop :=
  ∀ s t : State, Inv s → step s = .next t → Inv t

/-! ### Ports -/

/-- 60_exceptions.md R167, 00_scope.md R8, R204: inputs asserted together are consecutive events; `START` in the
cycle of a byte comes before the byte, `RD STATUS` answers the state before the byte, and a tick with a byte charges
nothing. The first clause gives the events of every cycle. Two of its words are the model's reading: `rst` is the word
`0xF00` (log 10), and a `cmd` other than the four R8 names is the word of that kind too (log 7). -/
def Obligations.PortsAreServedInOrder : Prop :=
  (∀ (p : Inputs) (es : List EventWord),
    es = (if p.rst then [(0xF00 : EventWord)] else []) ++
      (if p.cmdValid then [p.cmd.setWidth 12 <<< 8] else []) ++
      (if p.rdValid then [0x700 + p.rdAddr.setWidth 12] else []) ++
      (if p.rxValid then [0x100 + p.rxData.setWidth 12] else if p.tick then [0x200] else []) →
    cycleEvents p = if es = [] then [0x000] else es) ∧
  (decode ((0x3#4).setWidth 12 <<< 8) = .instr .start ∧ decode ((0x4#4).setWidth 12 <<< 8) = .instr .init ∧
    decode ((0x5#4).setWidth 12 <<< 8) = .instr .active ∧ decode ((0x6#4).setWidth 12 <<< 8) = .instr .sleep) ∧
  (∀ (p : Inputs) (s : State), applyInputs p s = { s with events := cycleEvents p ++ s.events }) ∧
  (∀ (p : Inputs) (s : State), s.phase = .idle → p.rst = false → p.cmdValid = true → p.cmd = 0x3 →
    p.rdValid = false → p.rxValid = true → ∃ t, runEvents (cycleEvents p) s = .next t ∧
      t.phase = .hunt ∧ t.prev = p.rxData ∧ t.prevValid = true ∧ t.pop = true ∧ t.retry = 0) ∧
  (∀ (p : Inputs) (s : State), p.rst = false → p.cmdValid = false → p.rdValid = true → p.rdAddr = 0x00 →
    p.rxValid = true →
    Host.Core.run Sys2Proof.core 1 (applyInputs p s) =
      .next { s with pop := false, rdData := statusWord s, events := chunk [p.rxData] ++ s.events }) ∧
  (∀ (p : Inputs) (s : State), p.rst = true → p.cmdValid = false → p.rdValid = false → p.rxValid = true →
    ∃ t, runEvents (cycleEvents p) s = .next t ∧ t.phase = .idle ∧ t.result = .none ∧ t.pop = false) ∧
  (∀ p : Inputs, p.rst = false → p.cmdValid = false → p.rdValid = false → p.rxValid = false → p.tick = false →
    cycleEvents p = [encode .nop])
end

