-- ==== Sys2Proof/Laws/Decode.lean ====
section
/-! SUPPORT. The bit-field lemmas of the event word. -/

namespace Sys2Proof

theorem eventOf_toNat (k : BitVec 4) (d : Byte) : (eventOf k d).toNat = 256 * k.toNat + d.toNat := by
  have h : (eventOf k d).toNat = k.toNat <<< 8 ||| d.toNat := BitVec.toNat_append k d
  rw [h, ← Nat.shiftLeft_add_eq_or_of_lt d.isLt, Nat.shiftLeft_eq]
  omega

theorem eventKind_toNat (w : EventWord) : (eventKind w).toNat = w.toNat / 256 := by
  have := w.isLt
  simp [eventKind, Nat.shiftRight_eq_div_pow]
  omega

theorem eventOperand_toNat (w : EventWord) : (eventOperand w).toNat = w.toNat % 256 := by
  simp [eventOperand]

@[simp] theorem eventKind_eventOf (k : BitVec 4) (d : Byte) : eventKind (eventOf k d) = k := by
  apply BitVec.eq_of_toNat_eq
  have := d.isLt
  rw [eventKind_toNat, eventOf_toNat]
  omega

@[simp] theorem eventOperand_eventOf (k : BitVec 4) (d : Byte) : eventOperand (eventOf k d) = d := by
  apply BitVec.eq_of_toNat_eq
  have := d.isLt
  rw [eventOperand_toNat, eventOf_toNat]
  omega

/-- A word is its kind and its operand. -/
theorem eventOf_kind_operand (w : EventWord) : eventOf (eventKind w) (eventOperand w) = w := by
  apply BitVec.eq_of_toNat_eq
  rw [eventOf_toNat, eventKind_toNat, eventOperand_toNat]
  omega

theorem decode_eventOf (k : BitVec 4) (d : Byte) : decode (eventOf k d) = decodeFields k d := by
  simp [decode]

end Sys2Proof
end

