-- ==== Sys2Proof/Laws/Memory.lean ====
section
/-! SUPPORT. The laws of the frame buffer: a read after a write, and the canonical form, which every write keeps. -/

namespace Sys2Proof.Machine

@[simp] theorem readByte_nil (a : Nat) : readByte [] a = 0x00 := rfl

@[simp] theorem readByte_cons (k : Nat) (x : Byte) (rest : Memory) (a : Nat) :
    readByte ((k, x) :: rest) a = if k = a then x else readByte rest a := rfl

theorem readByte_eraseCell (m : Memory) (a b : Nat) :
    readByte (eraseCell m a) b = if b = a then 0x00 else readByte m b := by
  induction m with
  | nil => simp [eraseCell]
  | cons c rest ih =>
    obtain ⟨k, x⟩ := c
    unfold eraseCell at ih ⊢
    by_cases hk : k = a
    · subst hk
      by_cases hb : b = k
      · simp [hb] at ih ⊢
        exact ih
      · simp [hb, Ne.symm hb] at ih ⊢
        exact ih
    · by_cases hkb : k = b
      · subst hkb
        simp [hk]
      · simp [hk, hkb] at ih ⊢
        exact ih

/-- After `insertCell` into a memory without a cell for `a`, offset `a` reads the value put there. -/
theorem readByte_insertCell (m : Memory) (a : Nat) (v : Byte) (hfree : ∀ c ∈ m, c.1 ≠ a) (b : Nat) :
    readByte (insertCell m a v) b = if b = a then v else readByte m b := by
  induction m with
  | nil =>
    by_cases h : b = a
    · simp [insertCell, h]
    · simp [insertCell, h, Ne.symm h]
  | cons c rest ih =>
    obtain ⟨k, x⟩ := c
    have hk : k ≠ a := hfree (k, x) (by simp)
    have hrest := ih (fun d hd => hfree d (by simp [hd]))
    unfold insertCell
    split
    · by_cases h : b = a
      · simp [h]
      · simp [h, Ne.symm h]
    · by_cases h : k = b
      · subst h
        simp [hk]
      · simp [h, hrest]

theorem eraseCell_free (m : Memory) (a : Nat) : ∀ c ∈ eraseCell m a, c.1 ≠ a := by
  intro c hc
  simpa using (List.mem_filter.mp hc).2

/-- The read-after-write law of `BUF`, for every memory, canonical or not. -/
theorem readByte_writeByte (m : Memory) (a : Nat) (v : Byte) (b : Nat) :
    readByte (writeByte m a v) b = if b = a then v else readByte m b := by
  unfold writeByte
  split
  · rename_i h
    rw [readByte_eraseCell, h]
  · rw [readByte_insertCell _ _ _ (eraseCell_free m a), readByte_eraseCell]
    split <;> rfl

@[simp] theorem readByte_writeByte_same (m : Memory) (a : Nat) (v : Byte) :
    readByte (writeByte m a v) a = v := by
  simp [readByte_writeByte]

theorem readByte_writeByte_other (m : Memory) {a b : Nat} (v : Byte) (h : b ≠ a) :
    readByte (writeByte m a v) b = readByte m b := by
  simp [readByte_writeByte, h]

/-! ### The canonical form -/

/-- `cellsRising` is the list being sorted by offset. -/
theorem cellsRising_iff (m : Memory) : cellsRising m = true ↔ m.Pairwise (fun c d => c.1 < d.1) := by
  induction m with
  | nil => simp [cellsRising]
  | cons c rest ih =>
    cases rest with
    | nil => simp [cellsRising]
    | cons d rest =>
      simp only [cellsRising, Bool.and_eq_true, decide_eq_true_eq, ih, List.pairwise_cons]
      constructor
      · rintro ⟨h, hd, hr⟩
        refine ⟨?_, hd, hr⟩
        intro e he
        rcases List.mem_cons.mp he with rfl | he
        · exact h
        · exact h.trans (hd e he)
      · rintro ⟨h, hd, hr⟩
        exact ⟨h d (by simp), hd, hr⟩

/-- What the canonical form says. -/
theorem wf_iff (m : Memory) : Memory.wf m = true ↔
    m.Pairwise (fun c d => c.1 < d.1) ∧ ∀ c ∈ m, c.1 < frameLen ∧ c.2 ≠ unlistedByte := by
  simp [Memory.wf, cellsRising_iff]

theorem wf_nil : Memory.wf [] = true := by simp [wf_iff]

theorem mem_insertCell (m : Memory) (a : Nat) (v : Byte) (c : Host.Cell) :
    c ∈ insertCell m a v ↔ c = (a, v) ∨ c ∈ m := by
  induction m with
  | nil => simp [insertCell]
  | cons d rest ih =>
    obtain ⟨k, x⟩ := d
    unfold insertCell
    split
    · simp
    · simp only [List.mem_cons, ih]
      tauto

theorem insertCell_rising (m : Memory) (a : Nat) (v : Byte)
    (hm : m.Pairwise (fun c d => c.1 < d.1)) (hfree : ∀ c ∈ m, c.1 ≠ a) :
    (insertCell m a v).Pairwise (fun c d => c.1 < d.1) := by
  induction m with
  | nil => simp [insertCell]
  | cons d rest ih =>
    obtain ⟨k, x⟩ := d
    have hk : k ≠ a := hfree (k, x) (by simp)
    rw [List.pairwise_cons] at hm
    have hrest := ih hm.2 (fun c hc => hfree c (by simp [hc]))
    unfold insertCell
    split
    · rename_i hak
      refine List.pairwise_cons.mpr ⟨?_, List.pairwise_cons.mpr hm⟩
      intro c hc
      rcases List.mem_cons.mp hc with rfl | hc
      · exact hak
      · exact hak.trans (hm.1 c hc)
    · rename_i hak
      refine List.pairwise_cons.mpr ⟨?_, hrest⟩
      intro c hc
      rcases (mem_insertCell rest a v c).mp hc with rfl | hc
      · show k < a
        omega
      · exact hm.1 c hc

/-- A write inside the buffer keeps the canonical form. -/
theorem wf_writeByte (m : Memory) (a : Nat) (v : Byte) (ha : a < frameLen) (hm : Memory.wf m = true) :
    Memory.wf (writeByte m a v) = true := by
  obtain ⟨hs, hc⟩ := (wf_iff m).mp hm
  have hs' : (eraseCell m a).Pairwise (fun c d => c.1 < d.1) := hs.filter _
  have hc' : ∀ c ∈ eraseCell m a, c.1 < frameLen ∧ c.2 ≠ unlistedByte :=
    fun c h => hc c (List.mem_filter.mp h).1
  unfold writeByte
  split
  · exact (wf_iff _).mpr ⟨hs', hc'⟩
  · rename_i hv
    refine (wf_iff _).mpr ⟨insertCell_rising _ _ _ hs' (eraseCell_free m a), ?_⟩
    intro c h
    rcases (mem_insertCell _ a v c).mp h with rfl | h
    · exact ⟨ha, hv⟩
    · exact hc' c h

/-- Everything `storeBuf` can do when it answers: the offset exists, and `BUF` alone is written. -/
theorem storeBuf_ok {a : Nat} {v : Byte} {s t : State} (h : storeBuf a v s = .ok t) :
    a < 32 ∧ t = { s with buf := writeByte s.buf a v } := by
  unfold storeBuf at h
  split at h
  · rename_i ha
    cases h
    exact ⟨ha, rfl⟩
  · cases h

/-- `storeBuf` answers at every offset that exists. -/
theorem storeBuf_inside {a : Nat} (v : Byte) (s : State) (ha : a < 32) :
    storeBuf a v s = .ok { s with buf := writeByte s.buf a v } := by
  simp [storeBuf, frameLen, ha]

/-- `storeBuf` keeps the canonical form. -/
theorem storeBuf_wf {a : Nat} {v : Byte} {s t : State} (h : storeBuf a v s = .ok t)
    (hs : Memory.wf s.buf = true) : Memory.wf t.buf = true := by
  obtain ⟨ha, rfl⟩ := storeBuf_ok h
  exact wf_writeByte _ _ _ ha hs

/-- The memory after reset is in canonical form. -/
theorem reset_buf_wf : Memory.wf State.reset.buf = true := wf_nil

end Sys2Proof.Machine
end

