-- ==== Sys2Proof/Laws/Operands.lean ====
section
/-! SUPPORT. The arithmetic of the frame: `be16` as a number and as a concatenation, the byte sum and its bounds. -/

namespace Sys2Proof.Machine

/-- `be16` is exact (R104). -/
theorem be16_toNat (h l : Byte) : (be16 h l).toNat = 256 * h.toNat + l.toNat := by
  simp [be16, BitVec.toNat_add, BitVec.toNat_mul]
  have := h.isLt
  have := l.isLt
  omega

/-- `be16` loses nothing. -/
theorem be16_inj {h l h' l' : Byte} : be16 h l = be16 h' l' ↔ h = h' ∧ l = l' := by
  constructor
  · intro e
    have e' := congrArg BitVec.toNat e
    rw [be16_toNat, be16_toNat] at e'
    have := l.isLt
    have := l'.isLt
    exact ⟨BitVec.eq_of_toNat_eq (by omega), BitVec.eq_of_toNat_eq (by omega)⟩
  · rintro ⟨rfl, rfl⟩
    rfl

/-- A word is the pair of its bytes (R71 against R41). -/
theorem be16_hi_lo (w : Word) : be16 (hiByte w) (loByte w) = w := by
  apply BitVec.eq_of_toNat_eq
  rw [be16_toNat]
  have := w.isLt
  simp [hiByte, loByte, Nat.shiftRight_eq_div_pow]
  omega

theorem hiByte_toNat (w : Word) : (hiByte w).toNat = w.toNat / 256 := by
  have := w.isLt
  simp [hiByte, Nat.shiftRight_eq_div_pow]
  omega

theorem loByte_toNat (w : Word) : (loByte w).toNat = w.toNat % 256 := by
  simp [loByte]

/-- The declared length is 28 exactly when its bytes are `00 1C` (R101). -/
theorem declaredLength_eq_iff (m : Memory) :
    declaredLength m = 28 ↔ readByte m 2 = 0x00 ∧ readByte m 3 = 0x1C := by
  have h : (28 : Word) = be16 0x00 0x1C := by decide
  rw [h]
  exact be16_inj

/-- A sum reads only the offsets below its length. -/
theorem byteSum_congr {m n : Memory} (k : Nat) (h : ∀ a, a < k → readByte m a = readByte n a) :
    byteSum m k = byteSum n k := by
  induction k with
  | zero => rfl
  | succ k ih =>
    simp only [byteSum]
    rw [ih (fun a ha => h a (by omega)), h k (by omega)]

theorem byteSum_le (m : Memory) (k : Nat) : byteSum m k ≤ 255 * k := by
  induction k with
  | zero => simp [byteSum]
  | succ k ih =>
    have := (readByte m k).isLt
    simp only [byteSum]
    omega

/-- The sum from offset `j` on. -/
theorem byteSum_tail (m : Memory) (j k : Nat) :
    byteSum m j ≤ byteSum m (j + k) ∧ byteSum m (j + k) ≤ byteSum m j + 255 * k := by
  induction k with
  | zero => simp
  | succ k ih =>
    have := (readByte m (j + k)).isLt
    have e : byteSum m (j + (k + 1)) = byteSum m (j + k) + (readByte m (j + k)).toNat := rfl
    omega

/-- Thirty bytes never wrap (R105). -/
theorem computedChecksum_toNat (m : Memory) : (computedChecksum m).toNat = byteSum m 30 := by
  have := byteSum_le m 30
  simp [computedChecksum, csumSpan]
  omega

/-- The checksum reads offsets 0 to 29 (R102). -/
theorem computedChecksum_congr {m n : Memory} (h : ∀ a, a < 30 → readByte m a = readByte n a) :
    computedChecksum m = computedChecksum n := by
  simp [computedChecksum, csumSpan, byteSum_congr 30 h]

end Sys2Proof.Machine
end

