-- ==== Sys2Proof/Laws/Frame.lean ====
section
/-! SUPPORT. The shape of `mkframe` (30_encoding.md R71): its length, where each field's bytes lie, and the sum of a
buffer that holds a given list of bytes. -/

namespace Sys2Proof.Machine

theorem frameBody_length (f : Vector Word 13) : (frameBody f).length = 30 := by
  simp [frameBody, List.length_flatMap]

theorem mkframe_length (f : Vector Word 13) : (mkframe f).length = 32 := by
  simp [mkframe, frameBody_length]

/-- In a list of byte pairs, pair `j` lies at `2j` and `2j + 1`. -/
theorem pairs_getElem? (l : List Word) (j : Nat) :
    (l.flatMap (fun w => [hiByte w, loByte w]))[2 * j]? = l[j]?.map hiByte ∧
    (l.flatMap (fun w => [hiByte w, loByte w]))[2 * j + 1]? = l[j]?.map loByte := by
  induction l generalizing j with
  | nil => simp
  | cons w l ih =>
    cases j with
    | zero => simp
    | succ j =>
      have h := ih j
      simp only [List.flatMap_cons, List.cons_append, List.nil_append, List.getElem?_cons_succ,
        show 2 * (j + 1) = 2 * j + 1 + 1 from rfl]
      exact h

/-- Field `i` of a frame lies at offsets `4 + 2i` and `5 + 2i` (R60, R71). -/
theorem frameBody_field (f : Vector Word 13) (i : Fin 13) :
    (frameBody f)[4 + 2 * i.val]? = some (hiByte f[i]) ∧
    (frameBody f)[4 + 2 * i.val + 1]? = some (loByte f[i]) := by
  have h := pairs_getElem? f.toList i.val
  have hi : f.toList[i.val]? = some f[i] := by simp
  rw [hi] at h
  have e : ∀ n, (frameBody f)[4 + n]? = (f.toList.flatMap (fun w => [hiByte w, loByte w]))[n]? := by
    intro n
    rw [Nat.add_comm]
    rfl
  exact ⟨(e _).trans h.1, (e _).trans h.2⟩

/-- The sum of a buffer whose first bytes are `l`. -/
theorem byteSum_of_list (m : Memory) (l : List Byte)
    (h : ∀ (k : Nat) (b : Byte), l[k]? = some b → readByte m k = b) : byteSum m l.length = listSum l := by
  have shifted : ∀ (l : List Byte) (j : Nat),
      (∀ (k : Nat) (b : Byte), l[k]? = some b → readByte m (j + k) = b) →
      byteSum m (j + l.length) = byteSum m j + listSum l := by
    intro l
    induction l with
    | nil => simp [listSum]
    | cons b l ih =>
      intro j hj
      have h0 : readByte m j = b := hj 0 b rfl
      have hl := ih (j + 1) (fun k c hk => by
        rw [← hj (k + 1) c (by simpa using hk)]
        congr 1
        omega)
      rw [List.length_cons, show j + (l.length + 1) = j + 1 + l.length by omega, hl]
      simp only [byteSum, listSum, h0]
      omega
  simpa [byteSum] using shifted l 0 (by simpa using h)

end Sys2Proof.Machine
end

