-- ==== Sys2Proof/Laws/State.lean ====
section
/-! SUPPORT. What each named update of the state does to each field, so that no later proof unfolds a record update. -/

namespace Sys2Proof.Machine

/-! ### `respond`: the outputs of a step -/

@[simp] theorem respond_phase (p : Bool) (d : Word) (s : State) : (respond p d s).phase = s.phase := rfl
@[simp] theorem respond_result (p : Bool) (d : Word) (s : State) : (respond p d s).result = s.result := rfl
@[simp] theorem respond_measValid (p : Bool) (d : Word) (s : State) : (respond p d s).measValid = s.measValid := rfl
@[simp] theorem respond_fault (p : Bool) (d : Word) (s : State) : (respond p d s).fault = s.fault := rfl
@[simp] theorem respond_cnt (p : Bool) (d : Word) (s : State) : (respond p d s).cnt = s.cnt := rfl
@[simp] theorem respond_retry (p : Bool) (d : Word) (s : State) : (respond p d s).retry = s.retry := rfl
@[simp] theorem respond_prev (p : Bool) (d : Word) (s : State) : (respond p d s).prev = s.prev := rfl
@[simp] theorem respond_prevValid (p : Bool) (d : Word) (s : State) : (respond p d s).prevValid = s.prevValid := rfl
@[simp] theorem respond_buf (p : Bool) (d : Word) (s : State) : (respond p d s).buf = s.buf := rfl
@[simp] theorem respond_meas (p : Bool) (d : Word) (s : State) : (respond p d s).meas = s.meas := rfl
@[simp] theorem respond_errExpected (p : Bool) (d : Word) (s : State) : (respond p d s).errExpected = s.errExpected := rfl
@[simp] theorem respond_errActual (p : Bool) (d : Word) (s : State) : (respond p d s).errActual = s.errActual := rfl
@[simp] theorem respond_enCfg (p : Bool) (d : Word) (s : State) : (respond p d s).enCfg = s.enCfg := rfl
@[simp] theorem respond_enLevel (p : Bool) (d : Word) (s : State) : (respond p d s).enLevel = s.enLevel := rfl
@[simp] theorem respond_pop (p : Bool) (d : Word) (s : State) : (respond p d s).pop = p := rfl
@[simp] theorem respond_rdData (p : Bool) (d : Word) (s : State) : (respond p d s).rdData = d := rfl
@[simp] theorem respond_events (p : Bool) (d : Word) (s : State) : (respond p d s).events = s.events := rfl
@[simp] theorem respond_params (p : Bool) (d : Word) (s : State) : (respond p d s).params = s.params := rfl

/-! ### `useFault`: a use fault -/

@[simp] theorem useFault_phase (s : State) : (useFault s).phase = s.phase := rfl
@[simp] theorem useFault_result (s : State) : (useFault s).result = s.result := rfl
@[simp] theorem useFault_measValid (s : State) : (useFault s).measValid = s.measValid := rfl
@[simp] theorem useFault_fault (s : State) : (useFault s).fault = true := rfl
@[simp] theorem useFault_cnt (s : State) : (useFault s).cnt = s.cnt := rfl
@[simp] theorem useFault_retry (s : State) : (useFault s).retry = s.retry := rfl
@[simp] theorem useFault_prev (s : State) : (useFault s).prev = s.prev := rfl
@[simp] theorem useFault_prevValid (s : State) : (useFault s).prevValid = s.prevValid := rfl
@[simp] theorem useFault_buf (s : State) : (useFault s).buf = s.buf := rfl
@[simp] theorem useFault_meas (s : State) : (useFault s).meas = s.meas := rfl
@[simp] theorem useFault_errExpected (s : State) : (useFault s).errExpected = s.errExpected := rfl
@[simp] theorem useFault_errActual (s : State) : (useFault s).errActual = s.errActual := rfl
@[simp] theorem useFault_enCfg (s : State) : (useFault s).enCfg = s.enCfg := rfl
@[simp] theorem useFault_enLevel (s : State) : (useFault s).enLevel = s.enLevel := rfl
@[simp] theorem useFault_pop (s : State) : (useFault s).pop = false := rfl
@[simp] theorem useFault_rdData (s : State) : (useFault s).rdData = 0x0000 := rfl
@[simp] theorem useFault_events (s : State) : (useFault s).events = s.events := rfl
@[simp] theorem useFault_params (s : State) : (useFault s).params = s.params := rfl

/-! ### `endAttempt`: the end of an attempt -/

@[simp] theorem endAttempt_phase (r : Result) (s : State) : (endAttempt r s).phase = .idle := rfl
@[simp] theorem endAttempt_result (r : Result) (s : State) : (endAttempt r s).result = r := rfl
@[simp] theorem endAttempt_measValid (r : Result) (s : State) : (endAttempt r s).measValid = s.measValid := rfl
@[simp] theorem endAttempt_fault (r : Result) (s : State) : (endAttempt r s).fault = s.fault := rfl
@[simp] theorem endAttempt_cnt (r : Result) (s : State) : (endAttempt r s).cnt = s.cnt := rfl
@[simp] theorem endAttempt_retry (r : Result) (s : State) : (endAttempt r s).retry = s.retry := rfl
@[simp] theorem endAttempt_prev (r : Result) (s : State) : (endAttempt r s).prev = s.prev := rfl
@[simp] theorem endAttempt_prevValid (r : Result) (s : State) : (endAttempt r s).prevValid = s.prevValid := rfl
@[simp] theorem endAttempt_buf (r : Result) (s : State) : (endAttempt r s).buf = s.buf := rfl
@[simp] theorem endAttempt_meas (r : Result) (s : State) : (endAttempt r s).meas = s.meas := rfl
@[simp] theorem endAttempt_errExpected (r : Result) (s : State) : (endAttempt r s).errExpected = s.errExpected := rfl
@[simp] theorem endAttempt_errActual (r : Result) (s : State) : (endAttempt r s).errActual = s.errActual := rfl
@[simp] theorem endAttempt_enCfg (r : Result) (s : State) : (endAttempt r s).enCfg = s.enCfg := rfl
@[simp] theorem endAttempt_enLevel (r : Result) (s : State) : (endAttempt r s).enLevel = s.enLevel := rfl
@[simp] theorem endAttempt_pop (r : Result) (s : State) : (endAttempt r s).pop = s.pop := rfl
@[simp] theorem endAttempt_rdData (r : Result) (s : State) : (endAttempt r s).rdData = s.rdData := rfl
@[simp] theorem endAttempt_events (r : Result) (s : State) : (endAttempt r s).events = s.events := rfl
@[simp] theorem endAttempt_params (r : Result) (s : State) : (endAttempt r s).params = s.params := rfl

/-! ### `raiseTimeout`: `raise Timeout` -/

@[simp] theorem raiseTimeout_phase (s : State) : (raiseTimeout s).phase = .idle := rfl
@[simp] theorem raiseTimeout_result (s : State) : (raiseTimeout s).result = .timeout := rfl
@[simp] theorem raiseTimeout_measValid (s : State) : (raiseTimeout s).measValid = s.measValid := rfl
@[simp] theorem raiseTimeout_fault (s : State) : (raiseTimeout s).fault = s.fault := rfl
@[simp] theorem raiseTimeout_cnt (s : State) : (raiseTimeout s).cnt = s.cnt := rfl
@[simp] theorem raiseTimeout_retry (s : State) : (raiseTimeout s).retry = s.retry := rfl
@[simp] theorem raiseTimeout_prev (s : State) : (raiseTimeout s).prev = s.prev := rfl
@[simp] theorem raiseTimeout_prevValid (s : State) : (raiseTimeout s).prevValid = s.prevValid := rfl
@[simp] theorem raiseTimeout_buf (s : State) : (raiseTimeout s).buf = s.buf := rfl
@[simp] theorem raiseTimeout_meas (s : State) : (raiseTimeout s).meas = s.meas := rfl
@[simp] theorem raiseTimeout_errExpected (s : State) : (raiseTimeout s).errExpected = s.errExpected := rfl
@[simp] theorem raiseTimeout_errActual (s : State) : (raiseTimeout s).errActual = s.errActual := rfl
@[simp] theorem raiseTimeout_enCfg (s : State) : (raiseTimeout s).enCfg = s.enCfg := rfl
@[simp] theorem raiseTimeout_enLevel (s : State) : (raiseTimeout s).enLevel = s.enLevel := rfl
@[simp] theorem raiseTimeout_pop (s : State) : (raiseTimeout s).pop = s.pop := rfl
@[simp] theorem raiseTimeout_rdData (s : State) : (raiseTimeout s).rdData = s.rdData := rfl
@[simp] theorem raiseTimeout_events (s : State) : (raiseTimeout s).events = s.events := rfl
@[simp] theorem raiseTimeout_params (s : State) : (raiseTimeout s).params = s.params := rfl

/-! ### `raiseError`: error entry -/

@[simp] theorem raiseError_phase (e : DecodeError) (s : State) : (raiseError e s).phase = .idle := rfl
@[simp] theorem raiseError_result (e : DecodeError) (s : State) : (raiseError e s).result = e.code := rfl
@[simp] theorem raiseError_measValid (e : DecodeError) (s : State) : (raiseError e s).measValid = s.measValid := rfl
@[simp] theorem raiseError_fault (e : DecodeError) (s : State) : (raiseError e s).fault = s.fault := rfl
@[simp] theorem raiseError_cnt (e : DecodeError) (s : State) : (raiseError e s).cnt = s.cnt := rfl
@[simp] theorem raiseError_retry (e : DecodeError) (s : State) : (raiseError e s).retry = s.retry := rfl
@[simp] theorem raiseError_prev (e : DecodeError) (s : State) : (raiseError e s).prev = s.prev := rfl
@[simp] theorem raiseError_prevValid (e : DecodeError) (s : State) : (raiseError e s).prevValid = s.prevValid := rfl
@[simp] theorem raiseError_buf (e : DecodeError) (s : State) : (raiseError e s).buf = s.buf := rfl
@[simp] theorem raiseError_meas (e : DecodeError) (s : State) : (raiseError e s).meas = s.meas := rfl
@[simp] theorem raiseError_errExpected (e : DecodeError) (s : State) : (raiseError e s).errExpected = e.expected := rfl
@[simp] theorem raiseError_errActual (e : DecodeError) (s : State) : (raiseError e s).errActual = e.actual := rfl
@[simp] theorem raiseError_enCfg (e : DecodeError) (s : State) : (raiseError e s).enCfg = s.enCfg := rfl
@[simp] theorem raiseError_enLevel (e : DecodeError) (s : State) : (raiseError e s).enLevel = s.enLevel := rfl
@[simp] theorem raiseError_pop (e : DecodeError) (s : State) : (raiseError e s).pop = s.pop := rfl
@[simp] theorem raiseError_rdData (e : DecodeError) (s : State) : (raiseError e s).rdData = s.rdData := rfl
@[simp] theorem raiseError_events (e : DecodeError) (s : State) : (raiseError e s).events = s.events := rfl
@[simp] theorem raiseError_params (e : DecodeError) (s : State) : (raiseError e s).params = s.params := rfl

/-! ### `openAttempt`: an accepted `START` -/

@[simp] theorem openAttempt_phase (s : State) : (openAttempt s).phase = .hunt := rfl
@[simp] theorem openAttempt_result (s : State) : (openAttempt s).result = .none := rfl
@[simp] theorem openAttempt_measValid (s : State) : (openAttempt s).measValid = s.measValid := rfl
@[simp] theorem openAttempt_fault (s : State) : (openAttempt s).fault = s.fault := rfl
@[simp] theorem openAttempt_cnt (s : State) : (openAttempt s).cnt = 0 := rfl
@[simp] theorem openAttempt_retry (s : State) : (openAttempt s).retry = 0 := rfl
@[simp] theorem openAttempt_prev (s : State) : (openAttempt s).prev = 0x00 := rfl
@[simp] theorem openAttempt_prevValid (s : State) : (openAttempt s).prevValid = false := rfl
@[simp] theorem openAttempt_buf (s : State) : (openAttempt s).buf = s.buf := rfl
@[simp] theorem openAttempt_meas (s : State) : (openAttempt s).meas = s.meas := rfl
@[simp] theorem openAttempt_errExpected (s : State) : (openAttempt s).errExpected = 0x0000 := rfl
@[simp] theorem openAttempt_errActual (s : State) : (openAttempt s).errActual = 0x0000 := rfl
@[simp] theorem openAttempt_enCfg (s : State) : (openAttempt s).enCfg = s.enCfg := rfl
@[simp] theorem openAttempt_enLevel (s : State) : (openAttempt s).enLevel = s.enLevel := rfl
@[simp] theorem openAttempt_pop (s : State) : (openAttempt s).pop = s.pop := rfl
@[simp] theorem openAttempt_rdData (s : State) : (openAttempt s).rdData = s.rdData := rfl
@[simp] theorem openAttempt_events (s : State) : (openAttempt s).events = s.events := rfl
@[simp] theorem openAttempt_params (s : State) : (openAttempt s).params = s.params := rfl

/-! ### `clearAll`: `RESET` -/

@[simp] theorem clearAll_phase (s : State) : (clearAll s).phase = .idle := rfl
@[simp] theorem clearAll_result (s : State) : (clearAll s).result = .none := rfl
@[simp] theorem clearAll_measValid (s : State) : (clearAll s).measValid = false := rfl
@[simp] theorem clearAll_fault (s : State) : (clearAll s).fault = false := rfl
@[simp] theorem clearAll_cnt (s : State) : (clearAll s).cnt = 0 := rfl
@[simp] theorem clearAll_retry (s : State) : (clearAll s).retry = 0 := rfl
@[simp] theorem clearAll_prev (s : State) : (clearAll s).prev = 0x00 := rfl
@[simp] theorem clearAll_prevValid (s : State) : (clearAll s).prevValid = false := rfl
@[simp] theorem clearAll_buf (s : State) : (clearAll s).buf = [] := rfl
@[simp] theorem clearAll_meas (s : State) : (clearAll s).meas = Vector.replicate 13 0x0000 := rfl
@[simp] theorem clearAll_errExpected (s : State) : (clearAll s).errExpected = 0x0000 := rfl
@[simp] theorem clearAll_errActual (s : State) : (clearAll s).errActual = 0x0000 := rfl
@[simp] theorem clearAll_enCfg (s : State) : (clearAll s).enCfg = false := rfl
@[simp] theorem clearAll_enLevel (s : State) : (clearAll s).enLevel = false := rfl
@[simp] theorem clearAll_pop (s : State) : (clearAll s).pop = false := rfl
@[simp] theorem clearAll_rdData (s : State) : (clearAll s).rdData = 0x0000 := rfl
@[simp] theorem clearAll_events (s : State) : (clearAll s).events = s.events := rfl
@[simp] theorem clearAll_params (s : State) : (clearAll s).params = s.params := rfl

/-! ### `takeEvent`: delivering the next event -/

@[simp] theorem takeEvent_phase (s : State) : (takeEvent s).phase = s.phase := rfl
@[simp] theorem takeEvent_result (s : State) : (takeEvent s).result = s.result := rfl
@[simp] theorem takeEvent_measValid (s : State) : (takeEvent s).measValid = s.measValid := rfl
@[simp] theorem takeEvent_fault (s : State) : (takeEvent s).fault = s.fault := rfl
@[simp] theorem takeEvent_cnt (s : State) : (takeEvent s).cnt = s.cnt := rfl
@[simp] theorem takeEvent_retry (s : State) : (takeEvent s).retry = s.retry := rfl
@[simp] theorem takeEvent_prev (s : State) : (takeEvent s).prev = s.prev := rfl
@[simp] theorem takeEvent_prevValid (s : State) : (takeEvent s).prevValid = s.prevValid := rfl
@[simp] theorem takeEvent_buf (s : State) : (takeEvent s).buf = s.buf := rfl
@[simp] theorem takeEvent_meas (s : State) : (takeEvent s).meas = s.meas := rfl
@[simp] theorem takeEvent_errExpected (s : State) : (takeEvent s).errExpected = s.errExpected := rfl
@[simp] theorem takeEvent_errActual (s : State) : (takeEvent s).errActual = s.errActual := rfl
@[simp] theorem takeEvent_enCfg (s : State) : (takeEvent s).enCfg = s.enCfg := rfl
@[simp] theorem takeEvent_enLevel (s : State) : (takeEvent s).enLevel = s.enLevel := rfl
@[simp] theorem takeEvent_pop (s : State) : (takeEvent s).pop = s.pop := rfl
@[simp] theorem takeEvent_rdData (s : State) : (takeEvent s).rdData = s.rdData := rfl
@[simp] theorem takeEvent_events (s : State) : (takeEvent s).events = s.events.tail := rfl
@[simp] theorem takeEvent_params (s : State) : (takeEvent s).params = s.params := rfl

/-! ### `deliver`: adding events to deliver -/

@[simp] theorem deliver_phase (es : List EventWord) (s : State) : (deliver es s).phase = s.phase := rfl
@[simp] theorem deliver_result (es : List EventWord) (s : State) : (deliver es s).result = s.result := rfl
@[simp] theorem deliver_measValid (es : List EventWord) (s : State) : (deliver es s).measValid = s.measValid := rfl
@[simp] theorem deliver_fault (es : List EventWord) (s : State) : (deliver es s).fault = s.fault := rfl
@[simp] theorem deliver_cnt (es : List EventWord) (s : State) : (deliver es s).cnt = s.cnt := rfl
@[simp] theorem deliver_retry (es : List EventWord) (s : State) : (deliver es s).retry = s.retry := rfl
@[simp] theorem deliver_prev (es : List EventWord) (s : State) : (deliver es s).prev = s.prev := rfl
@[simp] theorem deliver_prevValid (es : List EventWord) (s : State) : (deliver es s).prevValid = s.prevValid := rfl
@[simp] theorem deliver_buf (es : List EventWord) (s : State) : (deliver es s).buf = s.buf := rfl
@[simp] theorem deliver_meas (es : List EventWord) (s : State) : (deliver es s).meas = s.meas := rfl
@[simp] theorem deliver_errExpected (es : List EventWord) (s : State) : (deliver es s).errExpected = s.errExpected := rfl
@[simp] theorem deliver_errActual (es : List EventWord) (s : State) : (deliver es s).errActual = s.errActual := rfl
@[simp] theorem deliver_enCfg (es : List EventWord) (s : State) : (deliver es s).enCfg = s.enCfg := rfl
@[simp] theorem deliver_enLevel (es : List EventWord) (s : State) : (deliver es s).enLevel = s.enLevel := rfl
@[simp] theorem deliver_pop (es : List EventWord) (s : State) : (deliver es s).pop = s.pop := rfl
@[simp] theorem deliver_rdData (es : List EventWord) (s : State) : (deliver es s).rdData = s.rdData := rfl
@[simp] theorem deliver_events (es : List EventWord) (s : State) : (deliver es s).events = es ++ s.events := rfl
@[simp] theorem deliver_params (es : List EventWord) (s : State) : (deliver es s).params = s.params := rfl

/-! ### `extractFields`: `EXTRACT` -/

@[simp] theorem extractFields_phase (s : State) : (extractFields s).phase = s.phase := rfl
@[simp] theorem extractFields_result (s : State) : (extractFields s).result = .ok := rfl
@[simp] theorem extractFields_measValid (s : State) : (extractFields s).measValid = true := rfl
@[simp] theorem extractFields_fault (s : State) : (extractFields s).fault = s.fault := rfl
@[simp] theorem extractFields_cnt (s : State) : (extractFields s).cnt = s.cnt := rfl
@[simp] theorem extractFields_retry (s : State) : (extractFields s).retry = s.retry := rfl
@[simp] theorem extractFields_prev (s : State) : (extractFields s).prev = s.prev := rfl
@[simp] theorem extractFields_prevValid (s : State) : (extractFields s).prevValid = s.prevValid := rfl
@[simp] theorem extractFields_buf (s : State) : (extractFields s).buf = s.buf := rfl
@[simp] theorem extractFields_meas (s : State) : (extractFields s).meas = Vector.ofFn (fun i : Fin 13 => fieldValue s.buf i.val) := rfl
@[simp] theorem extractFields_errExpected (s : State) : (extractFields s).errExpected = s.errExpected := rfl
@[simp] theorem extractFields_errActual (s : State) : (extractFields s).errActual = s.errActual := rfl
@[simp] theorem extractFields_enCfg (s : State) : (extractFields s).enCfg = s.enCfg := rfl
@[simp] theorem extractFields_enLevel (s : State) : (extractFields s).enLevel = s.enLevel := rfl
@[simp] theorem extractFields_pop (s : State) : (extractFields s).pop = s.pop := rfl
@[simp] theorem extractFields_rdData (s : State) : (extractFields s).rdData = s.rdData := rfl
@[simp] theorem extractFields_events (s : State) : (extractFields s).events = s.events := rfl
@[simp] theorem extractFields_params (s : State) : (extractFields s).params = s.params := rfl

/-! ### `notePrev`: the look-back byte -/

@[simp] theorem notePrev_phase (b : Byte) (s : State) : (notePrev b s).phase = s.phase := rfl
@[simp] theorem notePrev_result (b : Byte) (s : State) : (notePrev b s).result = s.result := rfl
@[simp] theorem notePrev_measValid (b : Byte) (s : State) : (notePrev b s).measValid = s.measValid := rfl
@[simp] theorem notePrev_fault (b : Byte) (s : State) : (notePrev b s).fault = s.fault := rfl
@[simp] theorem notePrev_cnt (b : Byte) (s : State) : (notePrev b s).cnt = s.cnt := rfl
@[simp] theorem notePrev_retry (b : Byte) (s : State) : (notePrev b s).retry = s.retry := rfl
@[simp] theorem notePrev_prev (b : Byte) (s : State) : (notePrev b s).prev = b := rfl
@[simp] theorem notePrev_prevValid (b : Byte) (s : State) : (notePrev b s).prevValid = true := rfl
@[simp] theorem notePrev_buf (b : Byte) (s : State) : (notePrev b s).buf = s.buf := rfl
@[simp] theorem notePrev_meas (b : Byte) (s : State) : (notePrev b s).meas = s.meas := rfl
@[simp] theorem notePrev_errExpected (b : Byte) (s : State) : (notePrev b s).errExpected = s.errExpected := rfl
@[simp] theorem notePrev_errActual (b : Byte) (s : State) : (notePrev b s).errActual = s.errActual := rfl
@[simp] theorem notePrev_enCfg (b : Byte) (s : State) : (notePrev b s).enCfg = s.enCfg := rfl
@[simp] theorem notePrev_enLevel (b : Byte) (s : State) : (notePrev b s).enLevel = s.enLevel := rfl
@[simp] theorem notePrev_pop (b : Byte) (s : State) : (notePrev b s).pop = s.pop := rfl
@[simp] theorem notePrev_rdData (b : Byte) (s : State) : (notePrev b s).rdData = s.rdData := rfl
@[simp] theorem notePrev_events (b : Byte) (s : State) : (notePrev b s).events = s.events := rfl
@[simp] theorem notePrev_params (b : Byte) (s : State) : (notePrev b s).params = s.params := rfl

/-! ### `recordHit`: the hit step -/

@[simp] theorem recordHit_phase (s : State) : (recordHit s).phase = .collect := rfl
@[simp] theorem recordHit_result (s : State) : (recordHit s).result = s.result := rfl
@[simp] theorem recordHit_measValid (s : State) : (recordHit s).measValid = s.measValid := rfl
@[simp] theorem recordHit_fault (s : State) : (recordHit s).fault = s.fault := rfl
@[simp] theorem recordHit_cnt (s : State) : (recordHit s).cnt = 2 := rfl
@[simp] theorem recordHit_retry (s : State) : (recordHit s).retry = s.retry := rfl
@[simp] theorem recordHit_prev (s : State) : (recordHit s).prev = s.prev := rfl
@[simp] theorem recordHit_prevValid (s : State) : (recordHit s).prevValid = s.prevValid := rfl
@[simp] theorem recordHit_buf (s : State) : (recordHit s).buf = writeByte (writeByte s.buf 0 marker0) 1 marker1 := rfl
@[simp] theorem recordHit_meas (s : State) : (recordHit s).meas = s.meas := rfl
@[simp] theorem recordHit_errExpected (s : State) : (recordHit s).errExpected = s.errExpected := rfl
@[simp] theorem recordHit_errActual (s : State) : (recordHit s).errActual = s.errActual := rfl
@[simp] theorem recordHit_enCfg (s : State) : (recordHit s).enCfg = s.enCfg := rfl
@[simp] theorem recordHit_enLevel (s : State) : (recordHit s).enLevel = s.enLevel := rfl
@[simp] theorem recordHit_pop (s : State) : (recordHit s).pop = s.pop := rfl
@[simp] theorem recordHit_rdData (s : State) : (recordHit s).rdData = s.rdData := rfl
@[simp] theorem recordHit_events (s : State) : (recordHit s).events = s.events := rfl
@[simp] theorem recordHit_params (s : State) : (recordHit s).params = s.params := rfl

/-! ### `countByte`: counting a byte -/

@[simp] theorem countByte_phase (s : State) : (countByte s).phase = s.phase := rfl
@[simp] theorem countByte_result (s : State) : (countByte s).result = s.result := rfl
@[simp] theorem countByte_measValid (s : State) : (countByte s).measValid = s.measValid := rfl
@[simp] theorem countByte_fault (s : State) : (countByte s).fault = s.fault := rfl
@[simp] theorem countByte_cnt (s : State) : (countByte s).cnt = s.cnt + 1 := rfl
@[simp] theorem countByte_retry (s : State) : (countByte s).retry = s.retry := rfl
@[simp] theorem countByte_prev (s : State) : (countByte s).prev = s.prev := rfl
@[simp] theorem countByte_prevValid (s : State) : (countByte s).prevValid = s.prevValid := rfl
@[simp] theorem countByte_buf (s : State) : (countByte s).buf = s.buf := rfl
@[simp] theorem countByte_meas (s : State) : (countByte s).meas = s.meas := rfl
@[simp] theorem countByte_errExpected (s : State) : (countByte s).errExpected = s.errExpected := rfl
@[simp] theorem countByte_errActual (s : State) : (countByte s).errActual = s.errActual := rfl
@[simp] theorem countByte_enCfg (s : State) : (countByte s).enCfg = s.enCfg := rfl
@[simp] theorem countByte_enLevel (s : State) : (countByte s).enLevel = s.enLevel := rfl
@[simp] theorem countByte_pop (s : State) : (countByte s).pop = s.pop := rfl
@[simp] theorem countByte_rdData (s : State) : (countByte s).rdData = s.rdData := rfl
@[simp] theorem countByte_events (s : State) : (countByte s).events = s.events := rfl
@[simp] theorem countByte_params (s : State) : (countByte s).params = s.params := rfl

/-! ### `chargePoll`: charging an empty poll -/

@[simp] theorem chargePoll_phase (s : State) : (chargePoll s).phase = s.phase := rfl
@[simp] theorem chargePoll_result (s : State) : (chargePoll s).result = s.result := rfl
@[simp] theorem chargePoll_measValid (s : State) : (chargePoll s).measValid = s.measValid := rfl
@[simp] theorem chargePoll_fault (s : State) : (chargePoll s).fault = s.fault := rfl
@[simp] theorem chargePoll_cnt (s : State) : (chargePoll s).cnt = s.cnt := rfl
@[simp] theorem chargePoll_retry (s : State) : (chargePoll s).retry = s.retry + 1 := rfl
@[simp] theorem chargePoll_prev (s : State) : (chargePoll s).prev = s.prev := rfl
@[simp] theorem chargePoll_prevValid (s : State) : (chargePoll s).prevValid = s.prevValid := rfl
@[simp] theorem chargePoll_buf (s : State) : (chargePoll s).buf = s.buf := rfl
@[simp] theorem chargePoll_meas (s : State) : (chargePoll s).meas = s.meas := rfl
@[simp] theorem chargePoll_errExpected (s : State) : (chargePoll s).errExpected = s.errExpected := rfl
@[simp] theorem chargePoll_errActual (s : State) : (chargePoll s).errActual = s.errActual := rfl
@[simp] theorem chargePoll_enCfg (s : State) : (chargePoll s).enCfg = s.enCfg := rfl
@[simp] theorem chargePoll_enLevel (s : State) : (chargePoll s).enLevel = s.enLevel := rfl
@[simp] theorem chargePoll_pop (s : State) : (chargePoll s).pop = s.pop := rfl
@[simp] theorem chargePoll_rdData (s : State) : (chargePoll s).rdData = s.rdData := rfl
@[simp] theorem chargePoll_events (s : State) : (chargePoll s).events = s.events := rfl
@[simp] theorem chargePoll_params (s : State) : (chargePoll s).params = s.params := rfl

/-! ### `setEnCfg`: `INIT`'s write -/

@[simp] theorem setEnCfg_phase (v : Bool) (s : State) : (setEnCfg v s).phase = s.phase := rfl
@[simp] theorem setEnCfg_result (v : Bool) (s : State) : (setEnCfg v s).result = s.result := rfl
@[simp] theorem setEnCfg_measValid (v : Bool) (s : State) : (setEnCfg v s).measValid = s.measValid := rfl
@[simp] theorem setEnCfg_fault (v : Bool) (s : State) : (setEnCfg v s).fault = s.fault := rfl
@[simp] theorem setEnCfg_cnt (v : Bool) (s : State) : (setEnCfg v s).cnt = s.cnt := rfl
@[simp] theorem setEnCfg_retry (v : Bool) (s : State) : (setEnCfg v s).retry = s.retry := rfl
@[simp] theorem setEnCfg_prev (v : Bool) (s : State) : (setEnCfg v s).prev = s.prev := rfl
@[simp] theorem setEnCfg_prevValid (v : Bool) (s : State) : (setEnCfg v s).prevValid = s.prevValid := rfl
@[simp] theorem setEnCfg_buf (v : Bool) (s : State) : (setEnCfg v s).buf = s.buf := rfl
@[simp] theorem setEnCfg_meas (v : Bool) (s : State) : (setEnCfg v s).meas = s.meas := rfl
@[simp] theorem setEnCfg_errExpected (v : Bool) (s : State) : (setEnCfg v s).errExpected = s.errExpected := rfl
@[simp] theorem setEnCfg_errActual (v : Bool) (s : State) : (setEnCfg v s).errActual = s.errActual := rfl
@[simp] theorem setEnCfg_enCfg (v : Bool) (s : State) : (setEnCfg v s).enCfg = v := rfl
@[simp] theorem setEnCfg_enLevel (v : Bool) (s : State) : (setEnCfg v s).enLevel = s.enLevel := rfl
@[simp] theorem setEnCfg_pop (v : Bool) (s : State) : (setEnCfg v s).pop = s.pop := rfl
@[simp] theorem setEnCfg_rdData (v : Bool) (s : State) : (setEnCfg v s).rdData = s.rdData := rfl
@[simp] theorem setEnCfg_events (v : Bool) (s : State) : (setEnCfg v s).events = s.events := rfl
@[simp] theorem setEnCfg_params (v : Bool) (s : State) : (setEnCfg v s).params = s.params := rfl

/-! ### `setEnLevel`: `ACTIVE`'s and `SLEEP`'s write -/

@[simp] theorem setEnLevel_phase (v : Bool) (s : State) : (setEnLevel v s).phase = s.phase := rfl
@[simp] theorem setEnLevel_result (v : Bool) (s : State) : (setEnLevel v s).result = s.result := rfl
@[simp] theorem setEnLevel_measValid (v : Bool) (s : State) : (setEnLevel v s).measValid = s.measValid := rfl
@[simp] theorem setEnLevel_fault (v : Bool) (s : State) : (setEnLevel v s).fault = s.fault := rfl
@[simp] theorem setEnLevel_cnt (v : Bool) (s : State) : (setEnLevel v s).cnt = s.cnt := rfl
@[simp] theorem setEnLevel_retry (v : Bool) (s : State) : (setEnLevel v s).retry = s.retry := rfl
@[simp] theorem setEnLevel_prev (v : Bool) (s : State) : (setEnLevel v s).prev = s.prev := rfl
@[simp] theorem setEnLevel_prevValid (v : Bool) (s : State) : (setEnLevel v s).prevValid = s.prevValid := rfl
@[simp] theorem setEnLevel_buf (v : Bool) (s : State) : (setEnLevel v s).buf = s.buf := rfl
@[simp] theorem setEnLevel_meas (v : Bool) (s : State) : (setEnLevel v s).meas = s.meas := rfl
@[simp] theorem setEnLevel_errExpected (v : Bool) (s : State) : (setEnLevel v s).errExpected = s.errExpected := rfl
@[simp] theorem setEnLevel_errActual (v : Bool) (s : State) : (setEnLevel v s).errActual = s.errActual := rfl
@[simp] theorem setEnLevel_enCfg (v : Bool) (s : State) : (setEnLevel v s).enCfg = s.enCfg := rfl
@[simp] theorem setEnLevel_enLevel (v : Bool) (s : State) : (setEnLevel v s).enLevel = v := rfl
@[simp] theorem setEnLevel_pop (v : Bool) (s : State) : (setEnLevel v s).pop = s.pop := rfl
@[simp] theorem setEnLevel_rdData (v : Bool) (s : State) : (setEnLevel v s).rdData = s.rdData := rfl
@[simp] theorem setEnLevel_events (v : Bool) (s : State) : (setEnLevel v s).events = s.events := rfl
@[simp] theorem setEnLevel_params (v : Bool) (s : State) : (setEnLevel v s).params = s.params := rfl

end Sys2Proof.Machine
end

