-- ==== Sys2Proof/Laws/Ops.lean ====
section
/-! SUPPORT. What the shared operations and the three stream meanings can do, said once: callers cite these instead of
unfolding. -/

namespace Sys2Proof.Machine

/-- What `validate` answers (R101, R102, R166). -/
theorem validate_cases (m : Memory) :
    (declaredLength m ≠ 28 ∧ validate m = .error (.lengthMismatch 28 (declaredLength m))) ∨
    (declaredLength m = 28 ∧ computedChecksum m ≠ storedChecksum m ∧
      validate m = .error (.checksumMismatch (computedChecksum m) (storedChecksum m))) ∨
    (declaredLength m = 28 ∧ computedChecksum m = storedChecksum m ∧ validate m = .ok ()) := by
  by_cases hl : declaredLength m = 28
  · by_cases hc : computedChecksum m = storedChecksum m
    · exact .inr (.inr ⟨hl, hc, by simp [validate, checkLen, checkSum, lenExpected, hl, hc]⟩)
    · exact .inr (.inl ⟨hl, hc, by simp [validate, checkLen, checkSum, lenExpected, hl, hc]⟩)
  · have h : checkLen m = .error (.lengthMismatch 28 (declaredLength m)) := if_pos hl
    exact .inl ⟨hl, by simp only [validate, h]⟩

/-- The three things `DECODE` can do (R100). -/
theorem decodeFrame_cases (s : State) :
    (declaredLength s.buf ≠ 28 ∧
      decodeFrame s = { s with
        phase := .idle, result := .lengthMismatch, errExpected := 28, errActual := declaredLength s.buf }) ∨
    (declaredLength s.buf = 28 ∧ computedChecksum s.buf ≠ storedChecksum s.buf ∧
      decodeFrame s = { s with
        phase := .idle, result := .checksumMismatch
        errExpected := computedChecksum s.buf, errActual := storedChecksum s.buf }) ∨
    (declaredLength s.buf = 28 ∧ computedChecksum s.buf = storedChecksum s.buf ∧
      decodeFrame s = { s with
        phase := .idle, result := .ok, measValid := true
        meas := Vector.ofFn (fun i : Fin 13 => fieldValue s.buf i.val) }) := by
  rcases validate_cases s.buf with ⟨hl, hv⟩ | ⟨hl, hc, hv⟩ | ⟨hl, hc, hv⟩
  · exact .inl ⟨hl, by simp only [decodeFrame, hv]; rfl⟩
  · exact .inr (.inl ⟨hl, hc, by simp only [decodeFrame, hv]; rfl⟩)
  · exact .inr (.inr ⟨hl, hc, by simp only [decodeFrame, hv]; rfl⟩)

/-- What `DECODE` leaves alone, whatever it finds. -/
theorem decodeFrame_frame (s : State) :
    (decodeFrame s).phase = .idle ∧ (decodeFrame s).fault = s.fault ∧ (decodeFrame s).cnt = s.cnt ∧
    (decodeFrame s).retry = s.retry ∧ (decodeFrame s).prev = s.prev ∧
    (decodeFrame s).prevValid = s.prevValid ∧ (decodeFrame s).buf = s.buf ∧
    (decodeFrame s).enCfg = s.enCfg ∧ (decodeFrame s).enLevel = s.enLevel ∧
    (decodeFrame s).pop = s.pop ∧ (decodeFrame s).rdData = s.rdData ∧
    (decodeFrame s).events = s.events ∧ (decodeFrame s).params = s.params := by
  rcases decodeFrame_cases s with ⟨-, h⟩ | ⟨-, -, h⟩ | ⟨-, -, h⟩ <;> rw [h] <;> simp

/-- The hit condition (R82). -/
theorem isHit_iff (s : State) (b : Byte) :
    isHit s b = true ↔ s.prevValid = true ∧ s.prev = 0x42 ∧ b = 0x4D := by
  simp [isHit, marker0, marker1, and_assoc]

theorem budgetSpent_iff (s : State) : budgetSpent s = true ↔ s.retry = s.params.retryBudget := by
  simp [budgetSpent]

/-- Everything an answering append can do (R83): the offset exists, the byte lies there, and either the frame is not
complete or `DECODE` ran. -/
theorem rxCollect_next {b : Byte} {s t : State} (h : rxCollect b s = .next t) :
    s.cnt.toNat < 32 ∧ ∃ u : State,
      u = { s with buf := writeByte s.buf s.cnt.toNat b, cnt := s.cnt + 1, pop := true, rdData := 0x0000 } ∧
      ((s.cnt ≠ 31 ∧ t = u) ∨ (s.cnt = 31 ∧ t = decodeFrame u)) := by
  unfold rxCollect at h
  split at h
  · cases h
  · rename_i v hv
    obtain ⟨hlt, rfl⟩ := storeBuf_ok hv
    refine ⟨hlt, _, rfl, ?_⟩
    simp only [Host.Outcome.next.injEq] at h
    by_cases hc : s.cnt = 31
    · right
      refine ⟨hc, ?_⟩
      rw [← h, if_pos (by simp [hc])]
      rfl
    · left
      refine ⟨hc, ?_⟩
      rw [← h, if_neg]
      · rfl
      · intro h32
        apply hc
        simp only [respond_cnt, countByte_cnt] at h32
        bv_omega

/-- An append inside the buffer answers (R83). -/
theorem rxCollect_inside (b : Byte) (s : State) (h : s.cnt.toNat < 32) :
    rxCollect b s = .next
      (let u : State :=
        { s with buf := writeByte s.buf s.cnt.toNat b, cnt := s.cnt + 1, pop := true, rdData := 0x0000 }
       if s.cnt = 31 then decodeFrame u else u) := by
  have hc : (s.cnt + 1 = 32) = (s.cnt = 31) := by
    apply propext
    constructor <;> intro h' <;> bv_omega
  unfold rxCollect
  rw [storeBuf_inside b s h]
  simp only [respond_cnt, countByte_cnt, hc]
  rfl

/-! ### The meanings by phase -/

theorem execRx_of_idle {s : State} (b : Byte) (h : s.phase = .idle) :
    execRx b s = .next (respond false 0x0000 s) := by
  unfold execRx
  split <;> simp_all

theorem execRx_of_hunt {s : State} (b : Byte) (h : s.phase = .hunt) :
    execRx b s = .next (rxHunt b s) := by
  unfold execRx
  split <;> simp_all

theorem execRx_of_collect {s : State} (b : Byte) (h : s.phase = .collect) :
    execRx b s = rxCollect b s := by
  unfold execRx
  split <;> simp_all

theorem execEmpty_of_spent {s : State} (h : s.phase ≠ .idle) (hr : s.retry = s.params.retryBudget) :
    execEmpty s = .next (raiseTimeout (respond false 0x0000 s)) := by
  have hb : budgetSpent s = true := (budgetSpent_iff s).mpr hr
  simp only [execEmpty, h, hb, if_true, if_false]

theorem execEmpty_of_unspent {s : State} (h : s.phase ≠ .idle) (hr : s.retry ≠ s.params.retryBudget) :
    execEmpty s = .next (chargePoll (respond false 0x0000 s)) := by
  have hb : budgetSpent s = false := Bool.eq_false_iff.mpr (fun hb => hr ((budgetSpent_iff s).mp hb))
  simp only [execEmpty, h, hb, if_false, Bool.false_eq_true]

/-- Everything an answering `RX` can do, phase by phase (R81, R82, R83). -/
theorem execRx_next {b : Byte} {s t : State} (h : execRx b s = .next t) :
    (s.phase = .idle ∧ t = respond false 0x0000 s) ∨
    (s.phase = .hunt ∧ isHit s b = true ∧ t = recordHit (respond true 0x0000 (notePrev b s))) ∨
    (s.phase = .hunt ∧ isHit s b = false ∧ t = respond true 0x0000 (notePrev b s)) ∨
    (s.phase = .collect ∧ rxCollect b s = .next t) := by
  unfold execRx at h
  cases hp : s.phase
  · simp only [hp, Host.Outcome.next.injEq] at h
    exact .inl ⟨rfl, h.symm⟩
  · simp only [hp, Host.Outcome.next.injEq, rxHunt] at h
    cases hh : isHit s b
    · rw [hh] at h
      exact .inr (.inr (.inl ⟨rfl, rfl, h.symm⟩))
    · rw [hh] at h
      exact .inr (.inl ⟨rfl, rfl, h.symm⟩)
  · simp only [hp] at h
    exact .inr (.inr (.inr ⟨rfl, h⟩))

/-- Everything `EMPTY` can do (R84, R85). -/
theorem execEmpty_next {s t : State} (h : execEmpty s = .next t) :
    (s.phase = .idle ∧ t = respond false 0x0000 s) ∨
    (s.phase ≠ .idle ∧ s.retry = s.params.retryBudget ∧ t = raiseTimeout (respond false 0x0000 s)) ∨
    (s.phase ≠ .idle ∧ s.retry ≠ s.params.retryBudget ∧ t = chargePoll (respond false 0x0000 s)) := by
  unfold execEmpty at h
  by_cases hp : s.phase = .idle
  · simp only [hp, if_true, Host.Outcome.next.injEq] at h
    exact .inl ⟨hp, h.symm⟩
  · by_cases hr : s.retry = s.params.retryBudget
    · simp only [hp, (budgetSpent_iff s).mpr hr, if_true, if_false, Host.Outcome.next.injEq] at h
      exact .inr (.inl ⟨hp, hr, h.symm⟩)
    · have hb : budgetSpent s = false := by simp [budgetSpent, hr]
      simp only [hp, hb, if_false, Bool.false_eq_true, Host.Outcome.next.injEq] at h
      exact .inr (.inr ⟨hp, hr, h.symm⟩)

/-- Everything `START` can do (R80). -/
theorem execStart_next {s t : State} (h : execStart s = .next t) :
    (s.phase = .idle ∧ t = respond false 0x0000 (openAttempt s)) ∨ (s.phase ≠ .idle ∧ t = useFault s) := by
  unfold execStart at h
  split at h
  · rename_i hp
    cases h
    exact .inl ⟨hp, rfl⟩
  · rename_i hp
    cases h
    exact .inr ⟨hp, rfl⟩

/-- A rejected word always takes the use fault (R66, R150). -/
theorem takeReserved_eq (r : DecodeReject) (s : State) : takeReserved r s = .next (useFault s) := by
  cases r <;> rfl

/-- Everything an answering event can do, said once: the stream events and `START` case by case (`execRx_next`,
`execEmpty_next`, `execStart_next`), the lifecycle events, `RESET`, and an event that only answers. -/
theorem exec_next {i : Instr} {s t : State} (h : exec i s = .next t) :
    (∃ b, i = .rx b ∧ execRx b s = .next t) ∨
    (i = .empty ∧ execEmpty s = .next t) ∨
    (i = .start ∧ execStart s = .next t) ∨
    (i = .init ∧ t = respond false 0x0000 (setEnCfg true s)) ∨
    (i = .active ∧ t = respond false 0x0000 (setEnLevel true s)) ∨
    (i = .sleep ∧ t = respond false 0x0000 (setEnLevel false s)) ∨
    (∃ d, i = .reset d ∧ t = respond false 0x0000 (clearAll s)) ∨
    ((i = .nop ∨ isRead i = true) ∧ ∃ v, t = respond false v s ∧ (i = .nop → v = 0x0000)) := by
  cases i
  case rx b => exact .inl ⟨b, rfl, h⟩
  case empty => exact .inr (.inl ⟨rfl, h⟩)
  case start => exact .inr (.inr (.inl ⟨rfl, h⟩))
  case init => cases h; exact .inr (.inr (.inr (.inl ⟨rfl, rfl⟩)))
  case active => cases h; exact .inr (.inr (.inr (.inr (.inl ⟨rfl, rfl⟩))))
  case sleep => cases h; exact .inr (.inr (.inr (.inr (.inr (.inl ⟨rfl, rfl⟩)))))
  case reset d => cases h; exact .inr (.inr (.inr (.inr (.inr (.inr (.inl ⟨d, rfl, rfl⟩))))))
  case nop =>
    cases h
    exact .inr (.inr (.inr (.inr (.inr (.inr (.inr ⟨.inl rfl, _, rfl, fun _ => rfl⟩))))))
  all_goals
    cases h
    exact .inr (.inr (.inr (.inr (.inr (.inr (.inr ⟨.inr rfl, _, rfl, by simp⟩))))))

/-- An event answers a next state, or it is a byte appended at an offset that does not exist (log 6). -/
theorem exec_cases (i : Instr) (s : State) :
    (∃ t, exec i s = .next t) ∨
    (∃ b, i = .rx b ∧ s.phase = .collect ∧ 32 ≤ s.cnt.toNat ∧ exec i s = .fault .bufferAddress) := by
  cases i
  case rx b =>
    show (∃ t, execRx b s = .next t) ∨ _
    cases hp : s.phase
    · exact .inl ⟨_, execRx_of_idle b hp⟩
    · exact .inl ⟨_, execRx_of_hunt b hp⟩
    · by_cases hc : s.cnt.toNat < 32
      · exact .inl ⟨_, (execRx_of_collect b hp).trans (rxCollect_inside b s hc)⟩
      · refine .inr ⟨b, rfl, rfl, by omega, (execRx_of_collect b hp).trans ?_⟩
        simp [rxCollect, storeBuf, frameLen, hc]
  case empty =>
    left
    by_cases hp : s.phase = .idle
    · exact ⟨_, if_pos hp⟩
    · by_cases hr : s.retry = s.params.retryBudget
      · exact ⟨_, execEmpty_of_spent hp hr⟩
      · exact ⟨_, execEmpty_of_unspent hp hr⟩
  case start =>
    left
    by_cases hp : s.phase = .idle
    · exact ⟨_, if_pos hp⟩
    · exact ⟨_, if_neg hp⟩
  all_goals exact .inl ⟨_, rfl⟩

/-- Everything an answering step can do: it runs the decoded event, or takes the use fault. -/
theorem step_next {s t : State} (h : step s = .next t) :
    (∃ i, decode (nextWord s) = .instr i ∧ exec i (takeEvent s) = .next t) ∨
    (∃ r, decode (nextWord s) = .rejected r ∧ t = useFault (takeEvent s)) := by
  unfold step at h
  split at h
  · rename_i i hi
    exact .inl ⟨i, hi, h⟩
  · rename_i r hr
    rw [takeReserved_eq] at h
    cases h
    exact .inr ⟨r, hr, rfl⟩

/-! ### Runs -/

@[simp] theorem deliver_nil (s : State) : deliver [] s = s := rfl

theorem deliver_deliver (es fs : List EventWord) (s : State) :
    deliver es (deliver fs s) = deliver (es ++ fs) s := by
  simp [deliver]

@[simp] theorem nextWord_deliver_cons (w : EventWord) (es : List EventWord) (s : State) :
    nextWord (deliver (w :: es) s) = w := rfl

@[simp] theorem takeEvent_deliver_cons (w : EventWord) (es : List EventWord) (s : State) :
    takeEvent (deliver (w :: es) s) = deliver es s := rfl

@[simp] theorem runEvents_nil (s : State) : runEvents [] s = .next s := rfl

end Sys2Proof.Machine
end

