-- ==== Sys2Proof/Laws/PerInstr.lean ====
section
/-! SUPPORT. One lemma per constructor of `Instr`: its word is a legal event word and belongs to its row of
spec/opcode_table.json (30_encoding.md R63, R64). -/

namespace Sys2Proof.Laws.TableRow

/-- The word of `i` is legal and matches `i`'s row of the opcode table. -/
def Statement (i : Instr) : Prop :=
  encode i &&& (rowOf i).mask = (rowOf i).pattern ∧ wellFormedWord (encode i) = true

theorem nop : Statement .nop := by
  unfold Statement
  decide

theorem rx : ∀ b : Byte, Statement (.rx b) := by
  unfold Statement
  decide

theorem empty : Statement .empty := by
  unfold Statement
  decide

theorem start : Statement .start := by
  unfold Statement
  decide

theorem init : Statement .init := by
  unfold Statement
  decide

theorem active : Statement .active := by
  unfold Statement
  decide

theorem sleep : Statement .sleep := by
  unfold Statement
  decide

theorem rdStatus : Statement .rdStatus := by
  unfold Statement
  decide

theorem rdCnt : Statement .rdCnt := by
  unfold Statement
  decide

theorem rdRetry : Statement .rdRetry := by
  unfold Statement
  decide

theorem rdErrExpected : Statement .rdErrExpected := by
  unfold Statement
  decide

theorem rdErrActual : Statement .rdErrActual := by
  unfold Statement
  decide

theorem rdPinctl : Statement .rdPinctl := by
  unfold Statement
  decide

theorem rdPm1_0 : Statement .rdPm1_0 := by
  unfold Statement
  decide

theorem rdPm2_5 : Statement .rdPm2_5 := by
  unfold Statement
  decide

theorem rdPm10 : Statement .rdPm10 := by
  unfold Statement
  decide

theorem rdBudget : Statement .rdBudget := by
  unfold Statement
  decide

theorem rdMeas0 : Statement .rdMeas0 := by
  unfold Statement
  decide

theorem rdMeas1 : Statement .rdMeas1 := by
  unfold Statement
  decide

theorem rdMeas2 : Statement .rdMeas2 := by
  unfold Statement
  decide

theorem rdMeas3 : Statement .rdMeas3 := by
  unfold Statement
  decide

theorem rdMeas4 : Statement .rdMeas4 := by
  unfold Statement
  decide

theorem rdMeas5 : Statement .rdMeas5 := by
  unfold Statement
  decide

theorem rdMeas6 : Statement .rdMeas6 := by
  unfold Statement
  decide

theorem rdMeas7 : Statement .rdMeas7 := by
  unfold Statement
  decide

theorem rdMeas8 : Statement .rdMeas8 := by
  unfold Statement
  decide

theorem rdMeas9 : Statement .rdMeas9 := by
  unfold Statement
  decide

theorem rdMeas10 : Statement .rdMeas10 := by
  unfold Statement
  decide

theorem rdMeas11 : Statement .rdMeas11 := by
  unfold Statement
  decide

theorem rdMeas12 : Statement .rdMeas12 := by
  unfold Statement
  decide

theorem reset : ∀ d : Byte, Statement (.reset d) := by
  unfold Statement
  decide

end Sys2Proof.Laws.TableRow
end

