-- ==== Sys2Proof/Laws/Run.lean ====
section
/-! SUPPORT. Running a list of events one at a time: the events still pending change no meaning, so a run of
`w :: es` is the meaning of `w` and then a run of `es`. -/

namespace Sys2Proof.Machine

theorem decodeFrame_deliver (es : List EventWord) (s : State) :
    decodeFrame (deliver es s) = deliver es (decodeFrame s) := by
  simp only [decodeFrame, deliver_buf]
  cases validate s.buf <;> rfl

theorem rxCollect_deliver {b : Byte} {s t : State} (es : List EventWord) (h : rxCollect b s = .next t) :
    rxCollect b (deliver es s) = .next (deliver es t) := by
  obtain ⟨hlt, u, hu, ht⟩ := rxCollect_next h
  rw [rxCollect_inside b (deliver es s) hlt]
  rcases ht with ⟨hc, rfl⟩ | ⟨hc, rfl⟩
  · simp only [deliver_cnt, hc, if_false, hu]
    rfl
  · rw [← decodeFrame_deliver]
    simp only [deliver_cnt, hc, if_true, hu]
    rfl

/-- The events still pending change no meaning. -/
theorem exec_deliver {i : Instr} {s t : State} (es : List EventWord) (h : exec i s = .next t) :
    exec i (deliver es s) = .next (deliver es t) := by
  cases i
  case rx b =>
    change execRx b s = .next t at h
    change execRx b (deliver es s) = .next (deliver es t)
    cases hp : s.phase
    · rw [execRx_of_idle b hp] at h
      rw [execRx_of_idle b (s := deliver es s) hp]
      cases h
      rfl
    · rw [execRx_of_hunt b hp] at h
      rw [execRx_of_hunt b (s := deliver es s) hp]
      cases h
      have e : isHit (deliver es s) b = isHit s b := rfl
      simp only [rxHunt, e]
      cases isHit s b <;> rfl
    · rw [execRx_of_collect b hp] at h
      rw [execRx_of_collect b (s := deliver es s) hp]
      exact rxCollect_deliver es h
  case empty =>
    rcases execEmpty_next h with ⟨hp, rfl⟩ | ⟨hp, hr, rfl⟩ | ⟨hp, hr, rfl⟩
    · exact if_pos hp
    · exact execEmpty_of_spent (s := deliver es s) hp hr
    · exact execEmpty_of_unspent (s := deliver es s) hp hr
  case start =>
    rcases execStart_next h with ⟨hp, rfl⟩ | ⟨hp, rfl⟩
    · exact if_pos hp
    · exact if_neg hp
  all_goals
    cases h
    rfl

/-- The first event of a run, where its word is accepted. -/
theorem runEvents_instr {w : EventWord} {i : Instr} {s t : State} (es : List EventWord)
    (hd : decode w = .instr i) (h : exec i s = .next t) :
    runEvents (w :: es) s = runEvents es t := by
  have hstep : Sys2Proof.core.step (deliver (w :: es) s) = .next (deliver es t) := by
    show step (deliver (w :: es) s) = _
    simp only [step, nextWord_deliver_cons, takeEvent_deliver_cons, hd]
    exact exec_deliver es h
  show Host.Core.run Sys2Proof.core (es.length + 1) (deliver (w :: es) s) = _
  simp only [Host.Core.run, hstep]
  rfl

/-- The first event of a run, where its word is rejected. -/
theorem runEvents_rejected {w : EventWord} {r : DecodeReject} (s : State) (es : List EventWord)
    (hd : decode w = .rejected r) : runEvents (w :: es) s = runEvents es (useFault s) := by
  have hstep : Sys2Proof.core.step (deliver (w :: es) s) = .next (deliver es (useFault s)) := by
    show step (deliver (w :: es) s) = _
    simp only [step, nextWord_deliver_cons, takeEvent_deliver_cons, hd, takeReserved_eq]
    rfl
  show Host.Core.run Sys2Proof.core (es.length + 1) (deliver (w :: es) s) = _
  simp only [Host.Core.run, hstep]
  rfl

theorem decode_rx (b : Byte) : decode (encode (.rx b)) = .instr (.rx b) := by
  simp only [encode, decode_eventOf]
  rfl

@[simp] theorem chunk_nil : chunk [] = [] := rfl

@[simp] theorem chunk_cons (b : Byte) (bs : List Byte) : chunk (b :: bs) = encode (.rx b) :: chunk bs := rfl

/-- One byte of a chunk. -/
theorem runEvents_rx {b : Byte} {s t : State} (es : List EventWord) (h : exec (.rx b) s = .next t) :
    runEvents (encode (.rx b) :: es) s = runEvents es t :=
  runEvents_instr es (decode_rx b) h

/-- A run that answers begins with an event that answers. -/
theorem runEvents_cons_next {w : EventWord} {es : List EventWord} {s t : State}
    (h : runEvents (w :: es) s = .next t) :
    (∃ i u, decode w = .instr i ∧ exec i s = .next u ∧ runEvents es u = .next t) ∨
    (∃ r, decode w = .rejected r ∧ runEvents es (useFault s) = .next t) := by
  cases hd : decode w with
  | rejected r => exact .inr ⟨r, rfl, by rw [runEvents_rejected s es hd] at h; exact h⟩
  | instr i =>
    left
    rcases exec_cases i s with ⟨u, hu⟩ | ⟨b, rfl, hp, hc, -⟩
    · exact ⟨i, u, rfl, hu, by rw [runEvents_instr es hd hu] at h; exact h⟩
    · exfalso
      have hstep : Sys2Proof.core.step (deliver (w :: es) s) = .fault .bufferAddress := by
        show step (deliver (w :: es) s) = _
        simp only [step, nextWord_deliver_cons, takeEvent_deliver_cons, hd]
        show execRx b (deliver es s) = _
        rw [execRx_of_collect b (s := deliver es s) hp]
        simp [rxCollect, storeBuf, frameLen, Nat.not_lt.mpr hc]
        rfl
      change Host.Core.run Sys2Proof.core (es.length + 1) (deliver (w :: es) s) = _ at h
      simp only [Host.Core.run, hstep] at h
      cases h

/-- A run in two parts. -/
theorem runEvents_append {es : List EventWord} {s t : State} (fs : List EventWord)
    (h : runEvents es s = .next t) : runEvents (es ++ fs) s = runEvents fs t := by
  induction es generalizing s with
  | nil =>
    cases h
    rfl
  | cons w es ih =>
    rcases runEvents_cons_next h with ⟨i, u, hd, he, h'⟩ | ⟨r, hd, h'⟩
    · rw [List.cons_append, runEvents_instr (es ++ fs) hd he]
      exact ih h'
    · rw [List.cons_append, runEvents_rejected s (es ++ fs) hd]
      exact ih h'

end Sys2Proof.Machine
end

