-- ==== Sys2Proof/Tests/Slice0.lean ====
section
/-! SUPPORT. Tests. Expected values come from spec/95_test_vectors.md (V<n>, P<n>) and the examples in the rules; the
witnesses at the end meet the hypotheses of the statements in Certificates/Slice0/Obligations.lean. -/

namespace Sys2Proof.Tests

open Sys2Proof Sys2Proof.Machine

/-- The next state, if there is one. -/
def nextOf (o : Host.Outcome State Fault Refusal) : Option State :=
  match o with
  | .next t => some t
  | .fault _ => none
  | .refused _ => none

/-- Hunting, with `b` as the last byte scanned. -/
def hunting (b : Byte) : State := { State.reset with phase := .hunt, prev := b, prevValid := true }

/-- Collecting, with `n` bytes in the buffer. -/
def collecting (n : Nat) (m : Memory) : State :=
  { State.reset with phase := .collect, cnt := BitVec.ofNat 6 n, buf := m, prev := 0x4D, prevValid := true }

/-- The marker and the right length (V1 offsets 0 to 3). -/
def header : Memory := [(0, 0x42), (1, 0x4D), (3, 0x1C)]

/-- The frame V1 without its last byte: fields 15, 35, 40 at indices 4, 5, 6. -/
def frameV1 : Memory := header ++ [(13, 0x0F), (15, 0x23), (17, 0x28), (30, 0x01)]

/-- The whole frame V1. -/
def wholeV1 : Memory := frameV1 ++ [(31, 0x05)]

/-! ### Decoding: words written out from 30_encoding.md R63 and 10_state.md R22 -/

theorem test_decode_stream_words : decode 0x000 = .instr .nop ∧ decode 0x100 = .instr (.rx 0x00) ∧
    decode 0x14D = .instr (.rx 0x4D) ∧ decode 0x200 = .instr .empty ∧ decode 0x300 = .instr .start := by decide

theorem test_decode_pin_words : decode 0x400 = .instr .init ∧ decode 0x500 = .instr .active ∧
    decode 0x600 = .instr .sleep := by decide

theorem test_decode_status_reads : decode 0x700 = .instr .rdStatus ∧ decode 0x701 = .instr .rdCnt ∧
    decode 0x702 = .instr .rdRetry ∧ decode 0x703 = .instr .rdErrExpected ∧
    decode 0x704 = .instr .rdErrActual ∧ decode 0x705 = .instr .rdPinctl := by decide

theorem test_decode_named_reads : decode 0x706 = .instr .rdPm1_0 ∧ decode 0x707 = .instr .rdPm2_5 ∧
    decode 0x708 = .instr .rdPm10 ∧ decode 0x709 = .instr .rdBudget := by decide

theorem test_decode_raw_reads_low : decode 0x710 = .instr .rdMeas0 ∧ decode 0x711 = .instr .rdMeas1 ∧
    decode 0x712 = .instr .rdMeas2 ∧ decode 0x713 = .instr .rdMeas3 ∧ decode 0x714 = .instr .rdMeas4 ∧
    decode 0x715 = .instr .rdMeas5 ∧ decode 0x716 = .instr .rdMeas6 := by decide

theorem test_decode_raw_reads_high : decode 0x717 = .instr .rdMeas7 ∧ decode 0x718 = .instr .rdMeas8 ∧
    decode 0x719 = .instr .rdMeas9 ∧ decode 0x71A = .instr .rdMeas10 ∧ decode 0x71B = .instr .rdMeas11 ∧
    decode 0x71C = .instr .rdMeas12 := by decide

/-- V28: the operand of `RESET` is ignored. -/
theorem test_decode_reset : decode 0xF00 = .instr (.reset 0x00) ∧ decode 0xF5A = .instr (.reset 0x5A) := by decide

theorem test_decode_rejects_by_name : decode 0x8AB = .rejected (.reservedKind 0x8) ∧
    decode 0xE00 = .rejected (.reservedKind 0xE) ∧ decode 0x301 = .rejected (.reservedOperand 0x3 0x01) ∧
    decode 0x70A = .rejected (.reservedRegister 0x0A) ∧ decode 0x70F = .rejected (.reservedRegister 0x0F) ∧
    decode 0x71D = .rejected (.reservedRegister 0x1D) := by decide

theorem test_table_word : decodeTableWord 16 0x142 = some (.rx 0x42) ∧ decodeTableWord 16 0x8AB = none ∧
    decodeTableWord 16 0x1000 = none := by decide

/-! ### Well-formed words: one ill-formed word for each check -/

theorem test_ill_formed_kind : kindLegal 0x8AB = false ∧ wellFormedWord 0x8AB = false := by decide

theorem test_ill_formed_operand : operandLegal 0x301 = false ∧ wellFormedWord 0x301 = false := by decide

theorem test_ill_formed_register : registerLegal 0x71D = false ∧ registerLegal 0x70A = false ∧
    wellFormedWord 0x71D = false := by decide

theorem test_well_formed : wellFormedWord 0x71C = true ∧ wellFormedWord 0x709 = true ∧
    wellFormedWord 0x1FF = true ∧ wellFormedWord 0xFFF = true := by decide

/-! ### One step of each event -/

/-- Example of R80. -/
theorem test_start : (nextOf (step (State.reset.withFetchWord 16 0x300))).map (fun t => (t.phase, statusWord t)) =
    some (.hunt, 0x0001) := by decide

/-- V29, P4: a `START` during an attempt only sets `FAULT`. -/
theorem test_start_refused : nextOf (exec .start (hunting 0x42)) =
    some { hunting 0x42 with fault := true } := by decide

/-- Example of R82: the hit. -/
theorem test_rx_hit : nextOf (exec (.rx 0x4D) (hunting 0x42)) = some { hunting 0x4D with
    phase := .collect, cnt := 2, buf := [(0, 0x42), (1, 0x4D)], pop := true } := by decide

/-- V1: the last byte of the frame. -/
theorem test_rx_last_byte : (nextOf (exec (.rx 0x05) (collecting 31 frameV1))).map
    (fun t => (statusWord t, t.cnt, readByte t.buf 31, t.meas[4], t.meas[5], t.meas[6])) =
    some (0x0024, 32, 0x05, 15, 35, 40) := by decide

/-- V6: one hundred polls are tolerated. -/
theorem test_empty_charged : (nextOf (exec .empty { hunting 0x00 with retry := 99 })).map
    (fun t => (t.phase, t.retry)) = some (.hunt, 100) := by decide

/-- V7, V8: the next one is the time-out, in either phase. -/
theorem test_empty_times_out : (nextOf (exec .empty { collecting 12 header with retry := 100 })).map
    (fun t => (statusWord t, t.retry, t.cnt)) = some (0x0008, 100, 12) := by decide

/-- Example of R115. -/
theorem test_init : (nextOf (exec .init State.reset)).map pinctlWord = some 0x0001 := by decide

/-- V19: `ACTIVE` before `INIT` sets the bit, and the pin is not driven. -/
theorem test_active : (nextOf (exec .active State.reset)).map (fun t => (pinctlWord t, drivenLevel t)) =
    some (0x0002, none) := by decide

/-- Example of R117. -/
theorem test_sleep : (nextOf (exec .sleep { State.reset with enCfg := true, enLevel := true })).map
    (fun t => (pinctlWord t, drivenLevel t)) = some (0x0001, some false) := by decide

/-- V17: `FAULT = 0`, a measurement kept, `CHECKSUM_MISMATCH`. -/
theorem test_rd_status : (nextOf (exec .rdStatus
    { State.reset with measValid := true, result := .checksumMismatch })).map (·.rdData) = some 0x0030 := by decide

/-- V8: `RD CNT` after the time-out. -/
theorem test_rd_cnt : (nextOf (exec .rdCnt (collecting 12 header))).map (·.rdData) = some 0x000C := by decide

/-- V21: `RD RETRY` after reset. -/
theorem test_rd_retry : (nextOf (exec .rdRetry State.reset)).map (·.rdData) = some 0x0000 := by decide

theorem test_rd_err : (nextOf (exec .rdErrExpected { State.reset with errExpected := 0x00C4 })).map (·.rdData) =
      some 0x00C4 ∧
    (nextOf (exec .rdErrActual { State.reset with errActual := 0x00C3 })).map (·.rdData) = some 0x00C3 := by decide

/-- V19. -/
theorem test_rd_pinctl : (nextOf (exec .rdPinctl { State.reset with enLevel := true })).map (·.rdData) =
    some 0x0002 := by decide

/-- The fields of P1. -/
def measP1 : State :=
  { State.reset with meas := #v[1, 2, 3, 4, 12, 25, 31, 1500, 420, 75, 9, 2, 0x9700] }

/-- P1: the values read. -/
theorem test_rd_named : (nextOf (exec .rdPm1_0 measP1)).map (·.rdData) = some 0x000C ∧
    (nextOf (exec .rdPm2_5 measP1)).map (·.rdData) = some 0x0019 ∧
    (nextOf (exec .rdPm10 measP1)).map (·.rdData) = some 0x001F := by decide

/-- V23. -/
theorem test_rd_budget : (nextOf (step (State.reset.withFetchWord 16 0x709))).map (·.rdData) = some 0x0064 := by
  decide

/-- P1's fields, read one by one. -/
theorem test_rd_meas : ([Instr.rdMeas0, .rdMeas1, .rdMeas2, .rdMeas3, .rdMeas4, .rdMeas5, .rdMeas6, .rdMeas7,
      .rdMeas8, .rdMeas9, .rdMeas10, .rdMeas11, .rdMeas12].map
      (fun i => (nextOf (exec i measP1)).map (·.rdData.toNat))) =
    [1, 2, 3, 4, 12, 25, 31, 1500, 420, 75, 9, 2, 38656].map some := by decide

/-- V33. -/
theorem test_reset : nextOf (exec (.reset 0x5A) { measP1 with measValid := true, fault := true, enCfg := true }) =
    some State.reset := by decide

/-- V21: `NOP` is not charged. -/
theorem test_nop : nextOf (exec .nop (hunting 0x42)) = some (hunting 0x42) := by decide

/-- V26. -/
theorem test_reserved_word : nextOf (step (State.reset.withFetchWord 16 0x8AB)) =
    some { State.reset with fault := true } := by decide

/-- V24. -/
theorem test_reserved_read : (nextOf (step (State.reset.withFetchWord 16 0x71D))).map
    (fun t => (t.rdData, statusWord t)) = some (0x0000, 0x0040) := by decide

/-! ### The frame -/

/-- V1, V10, V12: the three verdicts. -/
theorem test_verdicts : verdict wholeV1 = .ok ∧ verdict (writeByte wholeV1 3 0x1D) = .lengthMismatch ∧
    verdict (writeByte wholeV1 31 0x06) = .checksumMismatch := by decide

/-- V11: the payload of the error. -/
theorem test_checksum_payload : validate (writeByte wholeV1 13 0x10) =
    .error (.checksumMismatch 0x0106 0x0105) := rfl

/-- V16: the bytes of the length exchanged. -/
theorem test_length_payload : validate (writeByte (writeByte wholeV1 2 0x1C) 3 0x00) =
    .error (.lengthMismatch 0x001C 0x1C00) := rfl

/-- V14: a permutation passes. -/
theorem test_permutation_passes : verdict (writeByte (writeByte wholeV1 13 0x23) 15 0x0F) = .ok := by decide

/-- V1 as R71 builds it: 32 bytes, checksum `01 05`. -/
theorem test_mkframe : (mkframe #v[0, 0, 0, 0, 15, 35, 40, 0, 0, 0, 0, 0, 0]).drop 12 =
    [0x00, 0x0F, 0x00, 0x23, 0x00, 0x28, 0, 0, 0, 0, 0, 0, 0, 0, 0, 0, 0, 0, 0x01, 0x05] := by decide

/-! ### The written form of events (R69, R70) -/

theorem test_parse_rx : parseLine "RX 0x42            ; operand: one byte, hex or decimal".toList =
    some [0x142] := by decide

theorem test_parse_rd : parseLine "RD STATUS".toList = some [0x700] ∧ parseLine "RD 0x1D".toList = some [0x71D] ∧
    parseLine "RD MEAS12".toList = some [0x71C] := by decide

theorem test_parse_word : parseLine ".word 0x8AB".toList = some [0x8AB] ∧
    parseLine "  START  ".toList = some [0x300] ∧ parseLine "JUMP".toList = none := by decide

theorem test_parse_pseudo : parseLine "CHUNK 0x9A 66".toList = some [0x19A, 0x142] ∧
    parseLine "IDLE 2".toList = some [0x200, 0x200] := by decide

/-! ### Ports (R8, R167, R204) -/

theorem test_ports_order : cycleEvents
    { rst := true, cmdValid := true, cmd := 0x3, rdValid := true, rdAddr := 0x01, rxValid := true, rxData := 0x42,
      tick := true } = [0xF00, 0x300, 0x701, 0x142] := by decide

/-- Every two inputs of R167 in their order, and a lone tick. -/
theorem test_ports_pairs :
    cycleEvents ⟨true, true, 0x4, false, 0x00, false, 0x00, true⟩ = [0xF00, 0x400, 0x200] ∧
    cycleEvents ⟨true, false, 0x0, true, 0x1D, false, 0x00, false⟩ = [0xF00, 0x71D] ∧
    cycleEvents ⟨false, true, 0x6, true, 0x05, false, 0x00, false⟩ = [0x600, 0x705] := by decide

theorem test_ports_idle_and_tick :
    cycleEvents ⟨false, false, 0x0, false, 0x00, false, 0x00, false⟩ = [0x000] ∧
    cycleEvents ⟨false, false, 0x0, false, 0x00, false, 0x00, true⟩ = [0x200] := by decide

/-! ### Memory -/

theorem test_write_zero_unlists : writeByte [(3, 0x1C)] 3 0x00 = [] ∧ writeByte [(3, 0x1C)] 1 0x4D =
    [(1, 0x4D), (3, 0x1C)] ∧ readByte [(3, 0x1C)] 7 = 0x00 := by decide

theorem test_wf_refuses : Memory.wf [(3, 0x1C), (1, 0x4D)] = false ∧ Memory.wf [(3, 0x00)] = false ∧
    Memory.wf [(32, 0x01)] = false ∧ Memory.wf wholeV1 = true := by decide

/-! ### Witnesses: concrete states and operands that meet the hypotheses of the statements, one for each clause, at
the ends of the ranges -/

/-- `EncodeUndoesDecode`, `DecodingFollowsTheOpcodeTable` (rows): an accepted word in its row. -/
theorem witness_accepted_word : decode 0x1FF = .instr (.rx 0xFF) ∧
    (0x1FF : EventWord) &&& (rowOf (.rx 0xFF)).mask = (rowOf (.rx 0xFF)).pattern := by decide

/-- `DecodingFollowsTheOpcodeTable`: each kind clause. -/
theorem witness_kinds : eventKind 0xF5A = 0xF ∧ (eventKind 0x301 ∈ [0x0#4, 0x2#4, 0x3#4, 0x4#4, 0x5#4, 0x6#4]) ∧
    eventOperand 0x301 ≠ 0x00 ∧ eventKind 0x142 = 0x1 ∧ eventKind 0x71D = 0x7 := by decide

/-- `StepRunsTheDecodedEvent`. -/
theorem witness_pending_event : (State.reset.withFetchWord 16 0x300).events = [0x300] ∧
    decode 0x300 = .instr .start := by decide

/-- `StepWithNothingPendingIsNop`. -/
theorem witness_nothing_pending : State.reset.events = [] := by decide

/-- `ReservedWordOnlySetsFault`: both clauses, first and last reserved kind. -/
theorem witness_reserved_words : (State.reset.withFetchWord 16 0x800).events = [0x800] ∧
    (eventKind 0x800).toNat = 0x8 ∧ (eventKind 0xEFF).toNat = 0xE ∧
    (eventKind 0x601 ∈ [0x0#4, 0x2#4, 0x3#4, 0x4#4, 0x5#4, 0x6#4]) ∧ eventOperand 0x601 ≠ 0x00 := by decide

/-- `ReservedReadOnlySetsFault`: the ends of both ranges. -/
theorem witness_reserved_reads : (State.reset.withFetchWord 16 0x70A).events = [eventOf 0x7 0x0A] ∧
    (State.reset.withFetchWord 16 0x70F).events = [eventOf 0x7 0x0F] ∧
    (State.reset.withFetchWord 16 0x71D).events = [eventOf 0x7 0x1D] ∧
    (State.reset.withFetchWord 16 0x7FF).events = [eventOf 0x7 0xFF] := by decide

/-- `Inv` of a state in the middle of a frame: `EveryEventHasAnEffect`, `EveryStepKeepsTheInvariants`,
`RdCntShowsTheByteCount`, `RdRetryShowsThePolls`. -/
theorem witness_inv_collecting : Inv (collecting 31 frameV1) := by
  constructor <;> decide

/-- `Inv` after a good frame: `RdMeas0To6ShowTheFields`, `RdMeas7To12ShowTheFields`, `RdCntShowsTheByteCount`. -/
theorem witness_inv_ok : Inv { collecting 32 wholeV1 with
    phase := .idle, result := .ok, measValid := true
    meas := #v[0, 0, 0, 0, 15, 35, 40, 0, 0, 0, 0, 0, 0] } := by
  constructor <;> decide

/-- `Inv` after a length error (V10): `RdErrShowsThePayload`. -/
theorem witness_inv_length : Inv { collecting 32 (writeByte wholeV1 3 0x1D) with
    phase := .idle, result := .lengthMismatch, errExpected := 28, errActual := 0x001D } := by
  constructor <;> decide

/-- `Inv` after a checksum error (V12): `RdErrShowsThePayload`. -/
theorem witness_inv_checksum : Inv { collecting 32 (writeByte wholeV1 31 0x06) with
    phase := .idle, result := .checksumMismatch, errExpected := 0x0105, errActual := 0x0106 } := by
  constructor <;> decide

/-- `Inv` after a time-out while collecting (V8): `RdRetryShowsThePolls`, `RdCntShowsTheByteCount`. -/
theorem witness_inv_timeout : Inv { collecting 12 header with
    phase := .idle, result := .timeout, retry := 100 } := by
  constructor <;> decide

/-- `EveryStepKeepsTheInvariants`: its second hypothesis, with the state of `witness_inv_collecting`. -/
theorem witness_step : ∃ t, step (collecting 31 frameV1) = .next t := ⟨_, rfl⟩

/-- The phases the assembler's statements suppose, with `CNT` at both ends of its range and just outside it:
`StartOpensAnAttemptOrIsRefused`, `RxWhileIdleIsNotTaken`, `RxWhileHuntingScansForTheMarker`,
`RxWhileCollectingAppends`, `AppendOutsideTheBufferStops`, `EmptyWhileIdleDoesNothing`, `OutcomeStaysUntilStartOrReset`,
`HuntWithoutMarkerNeverEnds`. -/
theorem witness_phases : State.reset.phase = .idle ∧ (hunting 0x42).phase = .hunt ∧
    (hunting 0x42).prevValid = true ∧ (hunting 0x42).prev = 0x42 ∧
    (collecting 2 []).phase = .collect ∧ (collecting 2 []).cnt.toNat = 2 ∧ (collecting 31 []).cnt.toNat = 31 ∧
    (collecting 31 []).cnt = 31 ∧ 32 ≤ (collecting 32 []).cnt.toNat ∧
    ({ State.reset with phase := .hunt } : State).prevValid = false := by decide

/-- `RxWhileHuntingScansForTheMarker`, first clause: `0x4D` after anything but `0x42`. -/
theorem witness_no_hit : ¬((hunting 0x00).prevValid = true ∧ (hunting 0x00).prev = 0x42 ∧ (0x4D : Byte) = 0x4D) := by
  decide

/-- `DecodeChecksThenPublishes`: a buffer for each of the three clauses. -/
theorem witness_decode_clauses : be16 (readByte wholeV1 2) (readByte wholeV1 3) = 28 ∧
    be16 (readByte wholeV1 30) (readByte wholeV1 31) = 0x0105 ∧ computedChecksum wholeV1 = 0x0105 ∧
    be16 (readByte (writeByte wholeV1 3 0x1D) 2) (readByte (writeByte wholeV1 3 0x1D) 3) ≠ 28 ∧
    computedChecksum (writeByte wholeV1 13 0x10) ≠ 0x0105 := by decide

/-- `EmptyChargesThePollOrTimesOut`, `BudgetIsToleratedThenTimesOut`, `SplitMarkerIsFound`: below the budget and at
it, and a budget of 0 (V8c). -/
theorem witness_budget : (hunting 0x42).retry ≠ (hunting 0x42).params.retryBudget ∧
    (hunting 0x42).retry.toNat + 100 = (hunting 0x42).params.retryBudget.toNat ∧
    (let s : State := { hunting 0x42 with params := { Params.default with retryBudget := 0 } }
     s.retry = s.params.retryBudget ∧ s.retry.toNat + 0 = s.params.retryBudget.toNat) := by decide

/-- `PhaseFollowsTheTransitionTable`, `BufferIsWrittenOnlyInOrder`, `OutputsOfOneEvent`,
`MeasurementIsReplacedOnlyWhole`, `BytesAreOnlyData`, `FaultIsStickyAndHarmless`, `FramePathIgnoresThePin`,
`HiddenStateShowsInNoOutput`: a byte that answers, and changes `BUF` at `CNT`. -/
theorem witness_exec_byte : ∃ t, exec (.rx 0xFF) (collecting 2 []) = .next t ∧
    readByte t.buf 2 ≠ readByte (collecting 2 []).buf 2 ∧ (∀ d, Instr.rx 0xFF ≠ .reset d) ∧
    Instr.rx 0xFF ≠ .rdPinctl ∧ Instr.rx 0xFF ≠ .rdStatus :=
  ⟨_, rfl, by decide, (by intro d h; cases h), by decide, by decide⟩

/-- `PhaseFollowsTheTransitionTable`: the clauses on `EMPTY`, the 32nd byte and a refused `START`, and a rejected
word; `AttemptEndsOnlyAsSpecified` by each of its three ways. -/
theorem witness_phase_clauses :
    (∃ t, exec .empty { hunting 0x42 with retry := 100 } = .next t ∧ t.phase = .idle) ∧
    (∃ t, exec (.rx 0x05) (collecting 31 frameV1) = .next t ∧ t.phase = .idle) ∧
    (∃ t, exec (.reset 0x00) (hunting 0x42) = .next t ∧ t.phase = .idle) ∧
    (∃ t, exec .start (hunting 0x42) = .next t) ∧
    (∃ t, takeReserved (.reservedKind 0x8) (hunting 0x42) = .next t) :=
  ⟨⟨_, rfl, rfl⟩, ⟨_, rfl, rfl⟩, ⟨_, rfl, rfl⟩, ⟨_, rfl⟩, ⟨_, rfl⟩⟩

/-- `FramePathIgnoresThePin`, second clause: each lifecycle event answers. -/
theorem witness_lifecycle : (∃ t, exec .init State.reset = .next t) ∧ (∃ t, exec .active State.reset = .next t) ∧
    (∃ t, exec .sleep State.reset = .next t) := ⟨⟨_, rfl⟩, ⟨_, rfl⟩, ⟨_, rfl⟩⟩

/-- `OutcomeStaysUntilStartOrReset`: an event of the kind it speaks of. -/
theorem witness_idle_event : (∃ t, exec .init State.reset = .next t) ∧ Instr.init ≠ .start ∧
    (∀ d, Instr.init ≠ .reset d) := ⟨⟨_, rfl⟩, by decide, (by intro d h; cases h)⟩

/-- `HuntWithoutMarkerNeverEnds`, `FrameAfterNoiseIsMeasured`: bytes without the pair, both its bytes among them. -/
theorem witness_no_marker : ¬ holdsMarker [0x4D, 0x42] := by
  rintro ⟨before, after, h⟩
  have hl := congrArg List.length h
  simp only [List.length_append, List.length_cons, List.length_nil] at hl
  have hb : before = [] := List.eq_nil_of_length_eq_zero (by omega)
  subst hb
  simp at h

/-- `CollectingEndsWithTheThirtySecondByte`: one byte and thirty bytes. -/
theorem witness_collecting_lengths : (collecting 31 []).cnt.toNat + [(0x05 : Byte)].length = 32 ∧
    (collecting 2 []).cnt.toNat + (List.replicate 30 (0x00 : Byte)).length = 32 := by decide

/-- `ChecksumStaysInRange`, second clause: the header of a frame with a stored checksum below 171, and one above
6801. -/
theorem witness_checksum_header : readByte header 0 = 0x42 ∧ readByte header 1 = 0x4D ∧
    readByte header 2 = 0x00 ∧ readByte header 3 = 0x1C ∧ (storedChecksum header).toNat < 171 ∧
    6801 < (storedChecksum (header ++ [(30, 0xFF)])).toNat ∧
    readByte (header ++ [(30, 0xFF)]) 0 = 0x42 ∧ readByte (header ++ [(30, 0xFF)]) 1 = 0x4D ∧
    readByte (header ++ [(30, 0xFF)]) 2 = 0x00 ∧ readByte (header ++ [(30, 0xFF)]) 3 = 0x1C := by decide

/-- `ChecksumIgnoresOrderButNotOneChange`, first clause: V14 against V1. -/
theorem witness_permutation : ((List.range 30).map (readByte wholeV1)).Perm
    ((List.range 30).map (readByte (writeByte (writeByte wholeV1 13 0x23) 15 0x0F))) := by decide

/-- One offset changed, at any offset: `ChecksumIgnoresOrderButNotOneChange`, `OneCorruptedByteIsRejected`. -/
theorem witness_one_change (k : Nat) (v : Byte) (h : readByte wholeV1 k ≠ v) :
    validFrame wholeV1 ∧ differOnlyAt k wholeV1 (writeByte wholeV1 k v) := by
  refine ⟨by unfold validFrame; decide, ?_, fun a ha => (readByte_writeByte_other _ _ ha).symm⟩
  rw [readByte_writeByte_same]
  exact h

/-- The boundary offsets of the clauses on one changed byte: 0, 2, 3, 4, 29, 30 and 31. -/
theorem witness_one_change_offsets : readByte wholeV1 0 ≠ 0xFF ∧ readByte wholeV1 2 ≠ 0xFF ∧
    readByte wholeV1 3 ≠ 0xFF ∧ readByte wholeV1 4 ≠ 0xFF ∧ readByte wholeV1 29 ≠ 0xFF ∧
    readByte wholeV1 30 ≠ 0xFF ∧ readByte wholeV1 31 ≠ 0xFF := by decide

/-- `NopDoesNothingAndMayBeDropped`: a run that answers. -/
theorem witness_run : ∃ t, runEvents [0x300, 0x000, 0x142] State.reset = .next t := ⟨_, rfl⟩

/-- `FailedAttemptKeepsTheMeasurement`: an attempt with a refused `START` in it, which times out on its first poll, with
a budget of 0. -/
theorem witness_failed_attempt :
    let s : State := { State.reset with params := { Params.default with retryBudget := 0 } }
    s.phase = .idle ∧ (∀ w ∈ [encode .start, encode .empty], eventKind w ≠ 0xF) ∧
    (∀ (before after : List EventWord) (u : State),
      [encode .start, encode .empty] = before ++ encode .start :: after →
      runEvents (encode .start :: before) s = .next u → u.phase ≠ .idle) ∧
    ∃ t, runEvents (encode .start :: [encode .start, encode .empty]) s = .next t ∧ t.result ≠ .ok := by
  refine ⟨rfl, by decide, ?_, _, rfl, by decide⟩
  intro before after u h hr
  match before, h with
  | [], _ =>
    cases hr
    decide
  | [_], h => exact absurd (List.cons.inj (List.cons.inj h).2).1 (by decide)
  | _ :: _ :: _, h =>
    have hl := congrArg List.length h
    simp at hl

/-- `HuntWithoutMarkerNeverEnds`, second clause: polls up to the budget, between bytes that hold no marker. -/
theorem witness_hunt_with_polls :
    let s : State := { State.reset with phase := .hunt, retry := 98 }
    let xs : List (Option Byte) := [some 0x4D, none, none, some 0x42]
    s.phase = .hunt ∧ s.prevValid = false ∧ xs.filterMap id = [0x4D, 0x42] ∧
    s.retry.toNat + xs.count none = s.params.retryBudget.toNat := by decide

/-- `ReadsAnswerAndChangeNothing`, `ResetClearsEveryElement` (its clause on reads), `OutputsOfOneEvent`. -/
theorem witness_reads : isRead .rdStatus = true ∧ isRead .rdMeas12 = true ∧ isRead .nop = false := by decide

/-- `ResetClearsEveryElement`: a `RESET` of each kind its last clause speaks of. -/
theorem witness_reset_clears :
    let s : State := { hunting 0x42 with fault := true, measValid := true, meas := Vector.replicate 13 0x0001 }
    ∃ t, exec (.reset 0x5A) s = .next t ∧ (s.fault = true ∧ t.fault = false) ∧
      (s.measValid = true ∧ t.measValid = false) ∧ (t.meas ≠ s.meas ∧ t.result ≠ .ok) ∧
      (s.phase ≠ .idle ∧ t.phase = .idle ∧ t.result = .none) :=
  ⟨_, rfl, by decide, by decide, by decide, by decide⟩

/-- `NamedReadsFollowTheIndices`, `PowerOnEqualsReset`, `BudgetIsReadAndNeverChanges`. -/
theorem witness_reset_state : State.reset.params = Params.default ∧ State.reset.events = [] ∧
    (nextOf (step State.reset)).isSome = true := by decide

/-- `FaultIsStickyAndHarmless`: a step of each case of its first clause. -/
theorem witness_fault_cases : (nextOf (step (State.reset.withFetchWord 16 0xF00))).isSome = true ∧
    (nextOf (step (State.reset.withFetchWord 16 0x300))).isSome = true ∧
    (nextOf (step (State.reset.withFetchWord 16 0x000))).isSome = true ∧
    (nextOf (step (State.reset.withFetchWord 16 0x8AB))).isSome = true := by decide

/-- `PortsAreServedInOrder`: inputs for each of its four clauses. -/
theorem witness_ports :
    (let p : Inputs := ⟨false, true, 0x3, false, 0x00, true, 0x42, true⟩
     p.rst = false ∧ p.cmdValid = true ∧ p.cmd = 0x3 ∧ p.rdValid = false ∧ p.rxValid = true) ∧
    (let p : Inputs := ⟨false, false, 0x0, true, 0x00, true, 0x42, true⟩
     p.rst = false ∧ p.cmdValid = false ∧ p.rdValid = true ∧ p.rdAddr = 0x00 ∧ p.rxValid = true) ∧
    (let p : Inputs := ⟨true, false, 0x0, false, 0x00, true, 0x42, false⟩
     p.rst = true ∧ p.cmdValid = false ∧ p.rdValid = false ∧ p.rxValid = true) ∧
    (let p : Inputs := ⟨false, false, 0x0, false, 0x00, false, 0x42, false⟩
     p.rst = false ∧ p.cmdValid = false ∧ p.rdValid = false ∧ p.rxValid = false ∧ p.tick = false) := by decide

end Sys2Proof.Tests
end

section
/-! PROOFS of the family 10_state: the fields of `STATUS` (R23) and the use-fault flag (R14). -/

namespace Sys2Proof.Machine

/-! ### The fields of `STATUS` (R23)

The word is a concatenation, so one lemma says which field each bit comes from. -/

theorem statusWord_getLsbD (s : State) (i : Nat) :
    (statusWord s).getLsbD i =
      if i < 2 then s.phase.code.getLsbD i
      else if i < 5 then s.result.code.getLsbD (i - 2)
      else if i = 5 then s.measValid
      else if i = 6 then s.fault
      else false := by
  simp only [statusWord, BitVec.getLsbD_setWidth, BitVec.getLsbD_append, BitVec.getLsbD_ofBool]
  by_cases h7 : i < 7
  · interval_cases i <;> simp
  · simp [show ¬ i < 2 by omega, show ¬ i < 5 by omega, show ¬ i = 5 by omega, show ¬ i = 6 by omega,
      show ¬ i - 2 < 3 by omega, show ¬ i - 2 - 3 < 1 by omega, show ¬ i - 2 - 3 - 1 = 0 by omega]

theorem statusWord_phase (s : State) : (statusWord s).extractLsb' 0 2 = s.phase.code := by
  ext i hi
  simp [statusWord_getLsbD, hi]

theorem statusWord_result (s : State) : (statusWord s).extractLsb' 2 3 = s.result.code := by
  ext i hi
  simpa [statusWord_getLsbD, show ¬ 2 + i < 2 by omega, show 2 + i < 5 by omega]
    using BitVec.getLsbD_eq_getElem hi

theorem statusWord_measValid (s : State) : (statusWord s).getLsbD 5 = s.measValid :=
  statusWord_getLsbD s 5

theorem statusWord_fault (s : State) : (statusWord s).getLsbD 6 = s.fault :=
  statusWord_getLsbD s 6

theorem statusWord_high_bits (s : State) : (statusWord s).extractLsb' 7 9 = 0 := by
  ext i hi
  simp [statusWord_getLsbD, show ¬ 7 + i < 2 by omega, show ¬ 7 + i < 5 by omega,
    show ¬ 7 + i = 5 by omega, show ¬ 7 + i = 6 by omega]

theorem statusWord_reset : statusWord State.reset = 0x0000 := by decide

/-! ### What a step does to `FAULT` (R14) -/

theorem execStart_fault {s t : State} (h : execStart s = .next t) :
    t.fault = true ↔ s.fault = true ∨ s.phase ≠ .idle := by
  rcases execStart_next h with ⟨hp, rfl⟩ | ⟨hp, rfl⟩ <;> simp [hp]

theorem execRx_fault {b : Byte} {s t : State} (h : execRx b s = .next t) : t.fault = s.fault := by
  rcases execRx_next h with ⟨-, rfl⟩ | ⟨-, -, rfl⟩ | ⟨-, -, rfl⟩ | ⟨-, hc⟩
  · simp
  · simp
  · simp
  · obtain ⟨-, u, rfl, ⟨-, rfl⟩ | ⟨-, rfl⟩⟩ := rxCollect_next hc
    · rfl
    · exact (decodeFrame_frame _).2.1

theorem execEmpty_fault {s t : State} (h : execEmpty s = .next t) : t.fault = s.fault := by
  rcases execEmpty_next h with ⟨-, rfl⟩ | ⟨-, -, rfl⟩ | ⟨-, -, rfl⟩ <;> simp

/-- No event but `START` and `RESET` touches `FAULT`. -/
theorem exec_fault_of_ne {i : Instr} {s t : State} (h : exec i s = .next t)
    (hstart : i ≠ .start) (hreset : ∀ d, i ≠ .reset d) : t.fault = s.fault := by
  rcases exec_next h with ⟨b, -, hx⟩ | ⟨-, hx⟩ | ⟨rfl, -⟩ | ⟨-, rfl⟩ | ⟨-, rfl⟩ | ⟨-, rfl⟩ | ⟨d, rfl, -⟩ |
    ⟨-, v, rfl, -⟩
  · exact execRx_fault hx
  · exact execEmpty_fault hx
  · exact absurd rfl hstart
  · simp
  · simp
  · simp
  · exact absurd rfl (hreset d)
  · simp

/-! ### No event but `RD STATUS` reads `FAULT` (R14)

Run from the same state with another `FAULT`, an event answers the same next state up to `FAULT`. -/

/-- The same state with `FAULT` at `v`. -/
def setFault (v : Bool) (s : State) : State := { s with fault := v }

@[simp] theorem setFault_phase (v : Bool) (s : State) : (setFault v s).phase = s.phase := rfl
@[simp] theorem setFault_cnt (v : Bool) (s : State) : (setFault v s).cnt = s.cnt := rfl
@[simp] theorem setFault_buf (v : Bool) (s : State) : (setFault v s).buf = s.buf := rfl
@[simp] theorem isHit_setFault (v : Bool) (s : State) (b : Byte) : isHit (setFault v s) b = isHit s b := rfl

theorem decodeFrame_setFault (v : Bool) (s : State) :
    decodeFrame (setFault v s) = setFault v (decodeFrame s) := by
  cases hv : validate s.buf <;> simp only [decodeFrame, setFault_buf, hv] <;> rfl

theorem rxHunt_setFault (b : Byte) (v : Bool) (s : State) :
    rxHunt b (setFault v s) = setFault v (rxHunt b s) := by
  cases hh : isHit s b <;> simp only [rxHunt, isHit_setFault, hh] <;> rfl

theorem rxCollect_setFault {b : Byte} {s t : State} (v : Bool) (h : rxCollect b s = .next t) :
    rxCollect b (setFault v s) = .next (setFault v t) := by
  obtain ⟨hlt, u, rfl, ht⟩ := rxCollect_next h
  refine (rxCollect_inside b (setFault v s) hlt).trans ?_
  rcases ht with ⟨hc, rfl⟩ | ⟨hc, rfl⟩
  · rw [setFault_cnt, if_neg hc]
    rfl
  · rw [setFault_cnt, if_pos hc, ← decodeFrame_setFault]
    rfl

theorem execRx_setFault {b : Byte} {s t : State} (v : Bool) (h : execRx b s = .next t) :
    execRx b (setFault v s) = .next (setFault v t) := by
  cases hp : s.phase
  case idle =>
    cases (execRx_of_idle b hp).symm.trans h
    exact execRx_of_idle b hp
  case hunt =>
    cases (execRx_of_hunt b hp).symm.trans h
    rw [← rxHunt_setFault]
    exact execRx_of_hunt b hp
  case collect =>
    have hc : rxCollect b s = .next t := (execRx_of_collect b hp).symm.trans h
    exact (execRx_of_collect (s := setFault v s) b hp).trans (rxCollect_setFault v hc)

theorem execEmpty_setFault {s t : State} (v : Bool) (h : execEmpty s = .next t) :
    execEmpty (setFault v s) = .next (setFault v t) := by
  rcases execEmpty_next h with ⟨hp, rfl⟩ | ⟨hp, hr, rfl⟩ | ⟨hp, hr, rfl⟩
  · exact if_pos hp
  · exact execEmpty_of_spent hp hr
  · exact execEmpty_of_unspent hp hr

theorem execStart_setFault {s t : State} (v : Bool) (h : execStart s = .next t) :
    ∃ w, execStart (setFault v s) = .next (setFault w t) := by
  rcases execStart_next h with ⟨hp, rfl⟩ | ⟨hp, rfl⟩
  · exact ⟨v, if_pos hp⟩
  · exact ⟨true, if_neg hp⟩

/-- An event other than `RD STATUS` answers the same whatever `FAULT` is, up to `FAULT` itself. -/
theorem exec_setFault {i : Instr} {s t : State} (v : Bool) (hi : i ≠ .rdStatus) (h : exec i s = .next t) :
    ∃ w, exec i (setFault v s) = .next (setFault w t) := by
  cases i
  case rx b => exact ⟨v, execRx_setFault v h⟩
  case empty => exact ⟨v, execEmpty_setFault v h⟩
  case start => exact execStart_setFault v h
  case reset d => cases h; exact ⟨false, rfl⟩
  case rdStatus => exact absurd rfl hi
  all_goals cases h; exact ⟨v, rfl⟩

end Sys2Proof.Machine

namespace Sys2Proof
open Machine

/-- Settles O36: `RD STATUS` answers `statusWord`, whose fields are read off one by one. -/
theorem rdStatusShowsTheFields : Obligations.RdStatusShowsTheFields := by
  unfold Obligations.RdStatusShowsTheFields
  refine ⟨by decide, fun s => ⟨statusWord s, rfl, ?_, ?_, statusWord_measValid s, statusWord_fault s,
    statusWord_high_bits s, ?_⟩⟩
  · rw [statusWord_phase]
    cases s.phase <;> rfl
  · rw [statusWord_result]
    cases s.result <;> rfl
  · rintro rfl
    exact statusWord_reset

/-- Settles O48: each case of the step is one lemma on `FAULT`, and `exec_setFault` compares the two runs. -/
theorem faultIsStickyAndHarmless : Obligations.FaultIsStickyAndHarmless := by
  unfold Obligations.FaultIsStickyAndHarmless
  refine ⟨fun s t h => ?_, fun i s t v hi h => ?_⟩
  · rcases step_next h with ⟨i, hd, he⟩ | ⟨r, hd, rfl⟩
    · rw [hd]
      cases i
      case reset d => cases he; simp
      case start => exact execStart_fault (s := takeEvent s) he
      all_goals
        have hf := exec_fault_of_ne he (by simp) (by simp)
        simp [hf]
    · simp [hd]
  · obtain ⟨w, hw⟩ := exec_setFault v hi h
    exact ⟨_, hw, rfl⟩

end Sys2Proof
end

section
/-! PROOFS of the family 30_encoding: the order of decoding and the rows of the opcode table (R64), and the effect of
a reserved event word (R66). -/

namespace Sys2Proof
open Machine

/-! ### The decoder, kind by kind (R64) -/

theorem decodePlain_ne {d : Byte} (i : Instr) (k : BitVec 4) (hd : d ≠ 0x00) :
    decodePlain i k d = .rejected (.reservedOperand k d) :=
  if_neg hd

theorem decodePlain_instr {i j : Instr} {k : BitVec 4} {d : Byte} (h : decodePlain j k d = .instr i) :
    i = j ∧ d = 0x00 := by
  by_cases hd : d = 0x00
  · rw [decodePlain, if_pos hd] at h
    cases h
    exact ⟨rfl, hd⟩
  · rw [decodePlain_ne j k hd] at h
    cases h

/-- A read of an address names one of the 23 registers, or the address is reserved (R22, R150). -/
theorem decodeRead_cases (a : Byte) :
    (∃ i, isRead i = true ∧ decodeRead a = .instr i) ∨ decodeRead a = .rejected (.reservedRegister a) := by
  unfold decodeRead
  split
  case h_24 => exact .inr rfl
  all_goals exact .inl ⟨_, rfl, rfl⟩

theorem decode_kind_reset {w : EventWord} (hk : eventKind w = 0xF) :
    decode w = .instr (.reset (eventOperand w)) := by
  rw [decode, hk]
  rfl

theorem decode_kind_rx {w : EventWord} (hk : eventKind w = 0x1) :
    decode w = .instr (.rx (eventOperand w)) := by
  rw [decode, hk]
  rfl

theorem decode_kind_read {w : EventWord} (hk : eventKind w = 0x7) :
    decode w = decodeRead (eventOperand w) := by
  rw [decode, hk]
  rfl

theorem decode_reservedOperand {w : EventWord}
    (hk : eventKind w ∈ [0x0#4, 0x2#4, 0x3#4, 0x4#4, 0x5#4, 0x6#4]) (hd : eventOperand w ≠ 0x00) :
    decode w = .rejected (.reservedOperand (eventKind w) (eventOperand w)) := by
  rw [decode]
  generalize eventKind w = k at hk ⊢
  simp only [List.mem_cons, List.not_mem_nil, or_false] at hk
  rcases hk with rfl | rfl | rfl | rfl | rfl | rfl <;> exact decodePlain_ne _ _ hd

theorem decode_reservedKind {w : EventWord} (hlo : 0x8 ≤ (eventKind w).toNat) (hhi : (eventKind w).toNat ≤ 0xE) :
    decode w = .rejected (.reservedKind (eventKind w)) := by
  rw [decode]
  generalize eventKind w = k at hlo hhi ⊢
  unfold decodeFields
  split
  case h_10 => rfl
  case h_1 => exact absurd hhi (by decide)
  all_goals exact absurd hlo (by decide)

/-! ### Decoding and encoding undo each other (R62 to R64) -/

theorem decode_encode (i : Instr) : decode (encode i) = .instr i := by
  cases i
  case rx b => exact decode_rx b
  case reset d => exact decode_eventOf 0xF d
  all_goals rfl

theorem encode_of_decodeRead {a : Byte} {i : Instr} (h : decodeRead a = .instr i) : encode i = readWord a := by
  unfold decodeRead at h
  split at h <;> cases h <;> rfl

theorem encode_of_decodeFields {k : BitVec 4} {d : Byte} {i : Instr} (h : decodeFields k d = .instr i) :
    encode i = eventOf k d := by
  unfold decodeFields at h
  split at h
  case h_1 | h_8 => cases h; rfl
  case h_9 => exact encode_of_decodeRead h
  case h_10 => cases h
  all_goals
    obtain ⟨rfl, rfl⟩ := decodePlain_instr h
    rfl

theorem encode_of_decode {w : EventWord} {i : Instr} (h : decode w = .instr i) : encode i = w :=
  (encode_of_decodeFields h).trans (eventOf_kind_operand w)

/-! ### The rows of the opcode table -/

/-- A row fixes the whole word, or it is `RX`'s or `RESET`'s, which fix the kind only (R64). -/
theorem rowOf_cases (i : Instr) :
    ((rowOf i).mask = 0xFFF ∧ (rowOf i).pattern = encode i) ∨ (∃ b, i = .rx b) ∨ ∃ d, i = .reset d := by
  cases i
  case rx b => exact .inr (.inl ⟨b, rfl⟩)
  case reset d => exact .inr (.inr ⟨d, rfl⟩)
  all_goals exact .inl ⟨rfl, rfl⟩

theorem encode_matches_row (i : Instr) : encode i &&& (rowOf i).mask = (rowOf i).pattern := by
  rcases rowOf_cases i with ⟨hm, hp⟩ | ⟨b, rfl⟩ | ⟨d, rfl⟩
  · rw [hm, hp]
    exact BitVec.and_allOnes
  · exact (Laws.TableRow.rx b).1
  · exact (Laws.TableRow.reset d).1

/-- The mask `0xF00` keeps the kind. -/
theorem eventKind_and_kindMask (w : EventWord) : eventKind (w &&& 0xF00) = eventKind w :=
  BitVec.extractLsb'_and.trans BitVec.and_allOnes

theorem eventKind_of_kindMask {w : EventWord} {k : BitVec 4} (h : w &&& 0xF00 = eventOf k 0x00) :
    eventKind w = k := by
  rw [← eventKind_and_kindMask, h, eventKind_eventOf]

/-- A word of `i`'s row decodes to an instruction of that row. -/
theorem decode_of_row {w : EventWord} {i : Instr} (h : w &&& (rowOf i).mask = (rowOf i).pattern) :
    ∃ j, decode w = .instr j ∧ rowOf j = rowOf i := by
  rcases rowOf_cases i with ⟨hm, hp⟩ | ⟨b, rfl⟩ | ⟨d, rfl⟩
  · have hw : w = encode i := by
      rw [hm, hp] at h
      exact BitVec.and_allOnes.symm.trans h
    exact ⟨i, hw ▸ decode_encode i, rfl⟩
  · exact ⟨_, decode_kind_rx (eventKind_of_kindMask h), rfl⟩
  · exact ⟨_, decode_kind_reset (eventKind_of_kindMask h), rfl⟩

/-- Settles O3: one lemma on the decoder per kind; a row either fixes the whole word or only the kind. -/
theorem decodingFollowsTheOpcodeTable : Obligations.DecodingFollowsTheOpcodeTable := by
  unfold Obligations.DecodingFollowsTheOpcodeTable
  refine ⟨fun w hk => decode_kind_reset hk, fun w hk hd => ⟨_, decode_reservedOperand hk hd⟩,
    fun w hk => decode_kind_rx hk, fun w hk => ?_, fun w i h => ?_, fun w i h => decode_of_row h⟩
  · rw [decode_kind_read hk]
    exact decodeRead_cases (eventOperand w)
  · rw [← encode_of_decode h]
    exact encode_matches_row i

/-! ### The step on a rejected word (R66, R150) -/

/-- A rejected word is consumed and takes the use fault, whatever the reason. -/
theorem step_of_rejected {s : State} {w : EventWord} {rest : List EventWord} {r : DecodeReject}
    (he : s.events = w :: rest) (hd : decode w = .rejected r) :
    step s = .next { s with events := rest, fault := true, pop := false, rdData := 0x0000 } := by
  have hw : nextWord s = w := by rw [nextWord, he]
  have ht : takeEvent s = { s with events := rest } := by rw [takeEvent, he, List.tail_cons]
  rw [step, hw, hd, ht]
  exact takeReserved_eq r _

/-- Settles O8: the decoder rejects both kinds of reserved word, and the step answers every rejected word alike. -/
theorem reservedWordOnlySetsFault : Obligations.ReservedWordOnlySetsFault := by
  unfold Obligations.ReservedWordOnlySetsFault
  rintro s w rest he (⟨hlo, hhi⟩ | ⟨hk, hd⟩)
  · exact step_of_rejected he (decode_reservedKind hlo hhi)
  · exact step_of_rejected he (decode_reservedOperand hk hd)

end Sys2Proof
end

section
/-! PROOFS of the family 40_assembler: `START` (R80), a byte offered in each phase (R81 to R83) and an empty poll
(R84, R85). -/

namespace Sys2Proof
open Machine

/-! ### The meanings by phase

The laws of `execRx`, and of `execEmpty` during an attempt, stand in Laws/Ops.lean; these are the cases they leave. -/

theorem execStart_of_idle {s : State} (h : s.phase = .idle) :
    execStart s = .next (respond false 0x0000 (openAttempt s)) :=
  if_pos h

theorem execStart_of_busy {s : State} (h : s.phase ≠ .idle) : execStart s = .next (useFault s) :=
  if_neg h

theorem execEmpty_of_idle {s : State} (h : s.phase = .idle) : execEmpty s = .next (respond false 0x0000 s) :=
  if_pos h

theorem rxHunt_of_hit {b : Byte} {s : State} (h : isHit s b = true) :
    rxHunt b s = recordHit (respond true 0x0000 (notePrev b s)) :=
  if_pos h

theorem rxHunt_of_miss {b : Byte} {s : State} (h : ¬ isHit s b = true) :
    rxHunt b s = respond true 0x0000 (notePrev b s) :=
  if_neg h

/-- A hit leaves every offset but 0 and 1 as it was (R82). -/
theorem readByte_recordHit_other (s : State) {a : Nat} (h0 : a ≠ 0) (h1 : a ≠ 1) :
    readByte (recordHit s).buf a = readByte s.buf a := by
  rw [recordHit_buf, readByte_writeByte_other _ _ h1, readByte_writeByte_other _ _ h0]

theorem readByte_recordHit_zero (s : State) : readByte (recordHit s).buf 0 = 0x42 := by
  rw [recordHit_buf, readByte_writeByte_other _ _ Nat.zero_ne_one, readByte_writeByte_same]

theorem readByte_recordHit_one (s : State) : readByte (recordHit s).buf 1 = 0x4D := by
  rw [recordHit_buf, readByte_writeByte_same]

/-- The word of `RX b` as a sum (R63). -/
theorem rxWord_eq_encode (b : Byte) : 0x100 + b.setWidth 12 = encode (.rx b) := by
  apply BitVec.eq_of_toNat_eq
  have hb := b.isLt
  have hw : (encode (.rx b)).toNat = 256 * 1 + b.toNat := eventOf_toNat 0x1 b
  rw [hw, BitVec.toNat_add, BitVec.toNat_setWidth, show (0x100 : EventWord).toNat = 256 from rfl]
  omega

theorem decode_rxWord (b : Byte) : decode (0x100 + b.setWidth 12) = .instr (.rx b) := by
  rw [rxWord_eq_encode, decode_rx]

/-! ### The statements -/

/-- Settles O13: `isHit` decides between `rxHunt`'s two cases, and a hit's buffer is read offset by offset. -/
theorem rxWhileHuntingScansForTheMarker : Obligations.RxWhileHuntingScansForTheMarker := by
  unfold Obligations.RxWhileHuntingScansForTheMarker
  refine ⟨decode_rxWord, fun b s hp => ?_⟩
  have hx : exec (.rx b) s = .next (rxHunt b s) := execRx_of_hunt b hp
  rw [hx, ← isHit_iff]
  refine ⟨fun hmiss => ?_, fun hhit => ?_⟩
  · rw [rxHunt_of_miss hmiss]
    rfl
  · rw [rxHunt_of_hit hhit]
    exact ⟨_, rfl, readByte_recordHit_zero _, readByte_recordHit_one _,
      fun _ h0 h1 => readByte_recordHit_other _ h0 h1⟩

/-- Settles O14: an append inside the buffer writes `CNT`'s offset alone and runs `DECODE` exactly from `CNT = 31`. -/
theorem rxWhileCollectingAppends : Obligations.RxWhileCollectingAppends := by
  unfold Obligations.RxWhileCollectingAppends
  refine ⟨decode_rxWord, fun b s hp hc => ?_⟩
  have hx := (execRx_of_collect b hp).trans (rxCollect_inside b s (Nat.lt_succ_of_le hc))
  refine ⟨writeByte s.buf s.cnt.toNat b, readByte_writeByte_same _ _ _,
    fun a ha => readByte_writeByte_other _ _ ha, fun h31 => ?_, fun h31 => ?_⟩
  · simp only [if_neg h31] at hx
    exact hx
  · have h32 : s.cnt + 1 = 32 := by rw [h31]; rfl
    simp only [if_pos h31, h32] at hx
    exact hx

/-- Settles O11: `START` in `IDLE` and in an attempt. -/
theorem startOpensAnAttemptOrIsRefused : Obligations.StartOpensAnAttemptOrIsRefused := by
  unfold Obligations.StartOpensAnAttemptOrIsRefused
  exact ⟨decode_encode .start, fun _ => ⟨execStart_of_idle, execStart_of_busy⟩⟩

/-- Settles O12: `RX` in `IDLE` only answers. -/
theorem rxWhileIdleIsNotTaken : Obligations.RxWhileIdleIsNotTaken := by
  unfold Obligations.RxWhileIdleIsNotTaken
  exact ⟨decode_rxWord, fun b _ => execRx_of_idle b⟩

/-- Settles O16: `EMPTY` in `IDLE` only answers. -/
theorem emptyWhileIdleDoesNothing : Obligations.EmptyWhileIdleDoesNothing := by
  unfold Obligations.EmptyWhileIdleDoesNothing
  exact ⟨decode_encode .empty, fun _ => execEmpty_of_idle⟩

/-- Settles O17: `EMPTY` during an attempt, below the budget and at it. -/
theorem emptyChargesThePollOrTimesOut : Obligations.EmptyChargesThePollOrTimesOut := by
  unfold Obligations.EmptyChargesThePollOrTimesOut
  exact ⟨decode_encode .empty, fun _ hp => ⟨execEmpty_of_unspent hp, execEmpty_of_spent hp⟩⟩

end Sys2Proof
end

section
/-! PROOFS of the family 41_decoder: the checks of `DECODE` in their order and what it publishes (R100 to R103). -/

namespace Sys2Proof
open Machine

/-- The recursive byte sum is the sum over the offsets below its length (R9, R44). -/
theorem byteSum_eq_sum_range (m : Memory) (n : Nat) :
    byteSum m n = ∑ k ∈ Finset.range n, (readByte m k).toNat := by
  induction n with
  | zero => rfl
  | succ n ih => rw [byteSum, Finset.sum_range_succ, ih]

theorem computedChecksum_eq_sum_range (m : Memory) :
    computedChecksum m = BitVec.ofNat 16 (∑ k ∈ Finset.range 30, (readByte m k).toNat) :=
  congrArg (BitVec.ofNat 16) (byteSum_eq_sum_range m 30)

/-- The second byte of field `i` lies at `5 + 2i` (R61). -/
theorem fieldValue_eq_be16 (m : Memory) (i : Nat) :
    fieldValue m i = be16 (readByte m (4 + 2 * i)) (readByte m (5 + 2 * i)) := by
  rw [fieldValue, readPair, Nat.add_right_comm]

/-- Settles O15: each of `decodeFrame_cases`' three cases meets the hypotheses of one clause and contradicts the other
two. -/
theorem decodeChecksThenPublishes : Obligations.DecodeChecksThenPublishes := by
  unfold Obligations.DecodeChecksThenPublishes
  rintro s _ _ _ rfl rfl rfl
  rw [← computedChecksum_eq_sum_range]
  rcases decodeFrame_cases s with ⟨hlen, hdec⟩ | ⟨hlen, hsum, hdec⟩ | ⟨hlen, hsum, hdec⟩
  · exact ⟨fun _ => hdec, fun h => absurd h hlen, fun h => absurd h hlen⟩
  · exact ⟨fun h => absurd hlen h, fun _ _ => hdec, fun _ h => absurd h hsum⟩
  · exact ⟨fun h => absurd hlen h, fun _ h => absurd hsum h,
      fun _ _ => ⟨_, fun i => (Vector.getElem_ofFn i.isLt).trans (fieldValue_eq_be16 s.buf i), hdec⟩⟩

end Sys2Proof
end

section
/-! PROOFS of the family 42_lifecycle: `INIT`, `ACTIVE` and `SLEEP` (R115 to R117) and the level they drive (R118). -/

namespace Sys2Proof
open Machine

/-! ### The two pin writes: a repeated one changes nothing, and what the pin shows after one -/

theorem respond_setEnCfg_idem (p : Bool) (d : Word) (v : Bool) (s : State) :
    respond p d (setEnCfg v (respond p d (setEnCfg v s))) = respond p d (setEnCfg v s) := rfl

theorem respond_setEnLevel_idem (p : Bool) (d : Word) (v : Bool) (s : State) :
    respond p d (setEnLevel v (respond p d (setEnLevel v s))) = respond p d (setEnLevel v s) := rfl

/-- The outputs of a step do not reach the pin (R118). -/
@[simp] theorem drivenLevel_respond (p : Bool) (d : Word) (s : State) :
    drivenLevel (respond p d s) = drivenLevel s := rfl

@[simp] theorem drivenLevel_setEnCfg_true (s : State) : drivenLevel (setEnCfg true s) = some s.enLevel := rfl

@[simp] theorem drivenLevel_setEnLevel (v : Bool) (s : State) :
    drivenLevel (setEnLevel v s) = if s.enCfg then some v else none := rfl

/-! ### The meanings -/

theorem exec_init (s : State) : exec .init s = .next (respond false 0x0000 (setEnCfg true s)) := rfl

theorem exec_active (s : State) : exec .active s = .next (respond false 0x0000 (setEnLevel true s)) := rfl

theorem exec_sleep (s : State) : exec .sleep s = .next (respond false 0x0000 (setEnLevel false s)) := rfl

/-! ### The statements -/

/-- Settles O30: `INIT` is the write of `EN_CFG`, which a second one repeats. -/
theorem initConfiguresThePin : Obligations.InitConfiguresThePin := by
  unfold Obligations.InitConfiguresThePin
  refine ⟨decode_encode .init, fun s => ⟨respond false 0x0000 (setEnCfg true s), rfl, exec_init s, ?_, ?_⟩⟩
  · rw [exec_init, respond_setEnCfg_idem]
  · rw [drivenLevel_respond, drivenLevel_setEnCfg_true]

/-- Settles O31: `ACTIVE` is the write of 1 to `EN_LEVEL`, which a second one repeats. -/
theorem activeRaisesThePin : Obligations.ActiveRaisesThePin := by
  unfold Obligations.ActiveRaisesThePin
  refine ⟨decode_encode .active, fun s => ⟨respond false 0x0000 (setEnLevel true s), rfl, exec_active s, ?_, ?_⟩⟩
  · rw [exec_active, respond_setEnLevel_idem]
  · rw [drivenLevel_respond, drivenLevel_setEnLevel]

/-- Settles O32: `SLEEP` is the write of 0 to `EN_LEVEL`, which a second one repeats. -/
theorem sleepLowersThePin : Obligations.SleepLowersThePin := by
  unfold Obligations.SleepLowersThePin
  refine ⟨decode_encode .sleep, fun s => ⟨respond false 0x0000 (setEnLevel false s), rfl, exec_sleep s, ?_, ?_⟩⟩
  · rw [exec_sleep, respond_setEnLevel_idem]
  · rw [drivenLevel_respond, drivenLevel_setEnLevel]

end Sys2Proof
end

section
/-! PROOFS of the family 43_host_access: what each `RD` answers (R129 to R148), the parameters no event changes (R135)
and the read of a reserved address (R150). -/

namespace Sys2Proof
open Machine

/-! ### A read in general (R125) -/

theorem answerRead_eq (v : Word) (s : State) :
    answerRead v s = .next { s with pop := false, rdData := v } := rfl

/-- A read of `MEAS` depends on its index alone. -/
theorem answerRead_meas_congr (s : State) {i j : Fin 13} :
    i = j → answerRead s.meas[i] s = answerRead s.meas[j] s := by
  rintro rfl
  rfl

/-! ### The fields of `PINCTL` (R24) -/

theorem pinctlWord_getLsbD (s : State) (i : Nat) :
    (pinctlWord s).getLsbD i = if i = 0 then s.enCfg else if i = 1 then s.enLevel else false := by
  simp only [pinctlWord, BitVec.getLsbD_setWidth, BitVec.getLsbD_append, BitVec.getLsbD_ofBool]
  by_cases h2 : i < 2
  · interval_cases i <;> simp
  · simp [show ¬ i < 1 by omega, show ¬ i = 0 by omega, show ¬ i = 1 by omega, show ¬ i - 1 = 0 by omega]

theorem pinctlWord_high_bits (s : State) : (pinctlWord s).extractLsb' 2 14 = 0 := by
  ext i hi
  simp [pinctlWord_getLsbD, show ¬ 2 + i = 1 by omega]

/-! ### No step writes a parameter (R135) -/

theorem decodeFrame_params (s : State) : (decodeFrame s).params = s.params := by
  obtain ⟨-, -, -, -, -, -, -, -, -, -, -, -, hparams⟩ := decodeFrame_frame s
  exact hparams

theorem execRx_params {b : Byte} {s t : State} (h : execRx b s = .next t) : t.params = s.params := by
  rcases execRx_next h with ⟨-, rfl⟩ | ⟨-, -, rfl⟩ | ⟨-, -, rfl⟩ | ⟨-, hc⟩
  · simp
  · simp
  · simp
  · obtain ⟨-, u, rfl, ⟨-, rfl⟩ | ⟨-, rfl⟩⟩ := rxCollect_next hc
    · rfl
    · exact decodeFrame_params _

theorem execEmpty_params {s t : State} (h : execEmpty s = .next t) : t.params = s.params := by
  rcases execEmpty_next h with ⟨-, rfl⟩ | ⟨-, -, rfl⟩ | ⟨-, -, rfl⟩ <;> simp

theorem execStart_params {s t : State} (h : execStart s = .next t) : t.params = s.params := by
  rcases execStart_next h with ⟨-, rfl⟩ | ⟨-, rfl⟩ <;> simp

theorem exec_params {i : Instr} {s t : State} (h : exec i s = .next t) : t.params = s.params := by
  rcases exec_next h with ⟨b, -, hx⟩ | ⟨-, hx⟩ | ⟨-, hx⟩ | ⟨-, rfl⟩ | ⟨-, rfl⟩ | ⟨-, rfl⟩ | ⟨d, -, rfl⟩ |
    ⟨-, v, rfl, -⟩
  · exact execRx_params hx
  · exact execEmpty_params hx
  · exact execStart_params hx
  all_goals simp

/-- A rejected word leaves the parameters alone too (R66, R150). -/
theorem step_params {s t : State} (h : step s = .next t) : t.params = s.params := by
  rcases step_next h with ⟨i, -, hx⟩ | ⟨r, -, rfl⟩
  · exact (exec_params hx).trans (takeEvent_params s)
  · simp

/-! ### What the registers hold in a state that meets the invariants -/

/-- After `OK`, `MEAS[j]` is the pair of frame offsets `4 + 2j` and `5 + 2j` (R61, R103). -/
theorem Inv.meas_of_ok {s : State} (hinv : Inv s) (hok : s.result = .ok) (j : Fin 13) :
    s.meas[j] = be16 (readByte s.buf (4 + 2 * j.val)) (readByte s.buf (5 + 2 * j.val)) := by
  obtain ⟨-, -, -, hmeas⟩ := hinv.okPublished hok
  exact (hmeas j).trans (fieldValue_eq_be16 s.buf j.val)

/-! ### The reserved addresses (R150) -/

theorem decodeRead_reserved {a : Byte} (h : (0x0A ≤ a.toNat ∧ a.toNat ≤ 0x0F) ∨ 0x1D ≤ a.toNat) :
    decodeRead a = .rejected (.reservedRegister a) := by
  unfold decodeRead
  split
  case h_24 => rfl
  all_goals exact absurd h (by decide)

theorem decode_reservedRead {a : Byte} (h : (0x0A ≤ a.toNat ∧ a.toNat ≤ 0x0F) ∨ 0x1D ≤ a.toNat) :
    decode (eventOf 0x7 a) = .rejected (.reservedRegister a) :=
  (decode_eventOf 0x7 a).trans (decodeRead_reserved h)

/-! ### The statements -/

/-- Settles O9: the decoder rejects the address, and the step answers every rejected word alike. -/
theorem reservedReadOnlySetsFault : Obligations.ReservedReadOnlySetsFault := by
  unfold Obligations.ReservedReadOnlySetsFault
  exact fun _ _ _ he ha => step_of_rejected he (decode_reservedRead ha)

/-- Settles O39: the two registers' content is what the invariants say of the payload (R20). -/
theorem rdErrShowsThePayload : Obligations.RdErrShowsThePayload := by
  unfold Obligations.RdErrShowsThePayload
  refine ⟨decode_encode .rdErrExpected, decode_encode .rdErrActual, fun s => ⟨answerRead_eq _ s, answerRead_eq _ s,
    fun hinv => ⟨hinv.errLength, fun hsum => ?_, hinv.errZero⟩⟩⟩
  obtain ⟨hexp, hact, hne, hlo, hhi⟩ := hinv.errChecksum hsum
  exact ⟨hexp, hlo, hhi, hact, hne⟩

/-- Settles O42: `RD BUDGET` answers the parameter, which no event and no rejected word writes. -/
theorem budgetIsReadAndNeverChanges : Obligations.BudgetIsReadAndNeverChanges := by
  unfold Obligations.BudgetIsReadAndNeverChanges
  exact ⟨decode_encode .rdBudget, fun s => answerRead_eq _ s, fun _ _ => step_params⟩

/-- Settles O40: `RD PINCTL` answers `pinctlWord`, whose bits are read off one by one. -/
theorem rdPinctlShowsThePinBits : Obligations.RdPinctlShowsThePinBits := by
  unfold Obligations.RdPinctlShowsThePinBits
  exact ⟨decode_encode .rdPinctl, fun s => ⟨pinctlWord s, answerRead_eq _ s, pinctlWord_getLsbD s 0,
    pinctlWord_getLsbD s 1, pinctlWord_high_bits s⟩⟩

/-- Settles O41: each named read is a read of `MEAS` at its index, and the default indices are 4, 5 and 6 (R4). -/
theorem namedReadsFollowTheIndices : Obligations.NamedReadsFollowTheIndices := by
  unfold Obligations.NamedReadsFollowTheIndices
  refine ⟨decode_encode .rdPm1_0, decode_encode .rdPm2_5, decode_encode .rdPm10, fun s =>
    ⟨answerRead_eq _ s, answerRead_eq _ s, answerRead_eq _ s, fun hdefault => ⟨?_, ?_, ?_⟩⟩⟩
  · exact answerRead_meas_congr s (congrArg Params.idxPm1_0 hdefault)
  · exact answerRead_meas_congr s (congrArg Params.idxPm2_5 hdefault)
  · exact answerRead_meas_congr s (congrArg Params.idxPm10 hdefault)

/-- Settles O43: seven reads of `MEAS`, and the offsets of every field after `OK`. -/
theorem rdMeas0To6ShowTheFields : Obligations.RdMeas0To6ShowTheFields := by
  unfold Obligations.RdMeas0To6ShowTheFields
  exact ⟨decode_encode .rdMeas0, decode_encode .rdMeas1, decode_encode .rdMeas2, decode_encode .rdMeas3,
    decode_encode .rdMeas4, decode_encode .rdMeas5, decode_encode .rdMeas6, fun s =>
    ⟨answerRead_eq _ s, answerRead_eq _ s, answerRead_eq _ s, answerRead_eq _ s, answerRead_eq _ s,
      answerRead_eq _ s, answerRead_eq _ s, fun hinv hok j _ => hinv.meas_of_ok hok j⟩⟩

/-- Settles O44: six reads of `MEAS`, and the offsets of every field after `OK`. -/
theorem rdMeas7To12ShowTheFields : Obligations.RdMeas7To12ShowTheFields := by
  unfold Obligations.RdMeas7To12ShowTheFields
  exact ⟨decode_encode .rdMeas7, decode_encode .rdMeas8, decode_encode .rdMeas9, decode_encode .rdMeas10,
    decode_encode .rdMeas11, decode_encode .rdMeas12, fun s =>
    ⟨answerRead_eq _ s, answerRead_eq _ s, answerRead_eq _ s, answerRead_eq _ s, answerRead_eq _ s,
      answerRead_eq _ s, fun hinv hok j _ => hinv.meas_of_ok hok j⟩⟩

end Sys2Proof
end

section
/-! PROOFS of the family 60_exceptions: an attempt that fails keeps the last good measurement (R177). -/

namespace Sys2Proof
open Machine

/-! ### What one event does to the measurement

During an attempt begun in `s` the measurement is the one of `s`, until the attempt ends in `OK`. -/

/-- `u` holds the measurement of `s`, or rests in `IDLE` after an attempt that ended in `OK`. -/
def MeasKeptUnlessOk (s u : State) : Prop :=
  (u.meas = s.meas ∧ u.measValid = s.measValid) ∨ (u.phase = .idle ∧ u.result = .ok)

theorem decodeFrame_measKeptUnlessOk {s u : State} (hmeas : u.meas = s.meas) (hvalid : u.measValid = s.measValid) :
    MeasKeptUnlessOk s (decodeFrame u) := by
  rcases decodeFrame_cases u with ⟨-, h⟩ | ⟨-, -, h⟩ | ⟨-, -, h⟩ <;> rw [h]
  · exact .inl ⟨hmeas, hvalid⟩
  · exact .inl ⟨hmeas, hvalid⟩
  · exact .inr ⟨rfl, rfl⟩

theorem execRx_measKeptUnlessOk {b : Byte} {s t : State} (h : execRx b s = .next t) : MeasKeptUnlessOk s t := by
  rcases execRx_next h with ⟨-, rfl⟩ | ⟨-, -, rfl⟩ | ⟨-, -, rfl⟩ | ⟨-, hc⟩
  · exact .inl ⟨rfl, rfl⟩
  · exact .inl ⟨rfl, rfl⟩
  · exact .inl ⟨rfl, rfl⟩
  · obtain ⟨-, u, rfl, ⟨-, rfl⟩ | ⟨-, rfl⟩⟩ := rxCollect_next hc
    · exact .inl ⟨rfl, rfl⟩
    · exact decodeFrame_measKeptUnlessOk rfl rfl

/-- Outside `RESET` only the publication of a good frame writes the measurement (R103). -/
theorem exec_measKeptUnlessOk {i : Instr} {s t : State} (h : exec i s = .next t) (hreset : ∀ d, i ≠ .reset d) :
    MeasKeptUnlessOk s t := by
  rcases exec_next h with ⟨b, -, hx⟩ | ⟨-, hx⟩ | ⟨-, hx⟩ | ⟨-, rfl⟩ | ⟨-, rfl⟩ | ⟨-, rfl⟩ | ⟨d, rfl, -⟩ |
    ⟨-, v, rfl, -⟩
  · exact execRx_measKeptUnlessOk hx
  · rcases execEmpty_next hx with ⟨-, rfl⟩ | ⟨-, -, rfl⟩ | ⟨-, -, rfl⟩ <;> exact .inl ⟨rfl, rfl⟩
  · rcases execStart_next hx with ⟨-, rfl⟩ | ⟨-, rfl⟩ <;> exact .inl ⟨rfl, rfl⟩
  · exact .inl ⟨rfl, rfl⟩
  · exact .inl ⟨rfl, rfl⟩
  · exact .inl ⟨rfl, rfl⟩
  · exact absurd rfl (hreset d)
  · exact .inl ⟨rfl, rfl⟩

/-- An event in `IDLE` other than `START` and `RESET` opens no attempt and leaves the recorded result (R170). -/
theorem exec_idle_keeps_result {i : Instr} {s t : State} (h : exec i s = .next t) (hidle : s.phase = .idle)
    (hstart : i ≠ .start) (hreset : ∀ d, i ≠ .reset d) : t.phase = .idle ∧ t.result = s.result := by
  rcases exec_next h with ⟨b, rfl, hx⟩ | ⟨rfl, hx⟩ | ⟨rfl, -⟩ | ⟨-, rfl⟩ | ⟨-, rfl⟩ | ⟨-, rfl⟩ | ⟨d, rfl, -⟩ |
    ⟨-, v, rfl, -⟩
  · cases (execRx_of_idle b hidle).symm.trans hx
    exact ⟨hidle, rfl⟩
  · cases (execEmpty_of_idle hidle).symm.trans hx
    exact ⟨hidle, rfl⟩
  · exact absurd rfl hstart
  · exact ⟨hidle, rfl⟩
  · exact ⟨hidle, rfl⟩
  · exact ⟨hidle, rfl⟩
  · exact absurd rfl (hreset d)
  · exact ⟨hidle, rfl⟩

/-- An event that is no `RESET` and no accepted `START` preserves `MeasKeptUnlessOk`. -/
theorem MeasKeptUnlessOk.exec {i : Instr} {s u t : State} (hkept : MeasKeptUnlessOk s u) (h : exec i u = .next t)
    (hreset : ∀ d, i ≠ .reset d) (hbusy : i = .start → u.phase ≠ .idle) : MeasKeptUnlessOk s t := by
  rcases hkept with ⟨hmeas, hvalid⟩ | ⟨hidle, hok⟩
  · exact (exec_measKeptUnlessOk h hreset).imp_left fun ⟨hm, hv⟩ => ⟨hm.trans hmeas, hv.trans hvalid⟩
  · obtain ⟨hp, hr⟩ := exec_idle_keeps_result h hidle (fun hi => hbusy hi hidle) hreset
    exact .inr ⟨hp, hr.trans hok⟩

theorem MeasKeptUnlessOk.useFault {s u : State} (hkept : MeasKeptUnlessOk s u) :
    MeasKeptUnlessOk s (useFault u) :=
  hkept

/-! ### Runs without an accepted `START` -/

/-- No `START` among `es` comes in `IDLE` when they run from `s`: each is refused (R80). -/
def NoAcceptedStart (es : List EventWord) (s : State) : Prop :=
  ∀ (before after : List EventWord) (u : State), es = before ++ encode .start :: after →
    runEvents before s = .next u → u.phase ≠ .idle

theorem NoAcceptedStart.head {es : List EventWord} {s : State}
    (h : NoAcceptedStart (encode .start :: es) s) : s.phase ≠ .idle :=
  h [] es s rfl (runEvents_nil s)

/-- What holds of a run holds of the rest of it, once its first event has led from `s` to `u`. -/
theorem NoAcceptedStart.tail {w : EventWord} {es : List EventWord} {s u : State} (h : NoAcceptedStart (w :: es) s)
    (hw : ∀ fs, runEvents (w :: fs) s = runEvents fs u) : NoAcceptedStart es u := by
  rintro before after v rfl hv
  exact h (w :: before) after v rfl ((hw before).trans hv)

theorem not_reset_of_decode {w : EventWord} {i : Instr} (hd : decode w = .instr i) (hk : eventKind w ≠ 0xF) :
    ∀ d, i ≠ .reset d := by
  rintro d rfl
  rw [← encode_of_decode hd] at hk
  exact hk (eventKind_eventOf 0xF d)

/-- The induction over a run: every event of it preserves `MeasKeptUnlessOk`. -/
theorem MeasKeptUnlessOk.runEvents {es : List EventWord} {s u t : State} (hkept : MeasKeptUnlessOk s u)
    (hreset : ∀ w ∈ es, eventKind w ≠ 0xF) (hstart : NoAcceptedStart es u) (h : runEvents es u = .next t) :
    MeasKeptUnlessOk s t := by
  induction es generalizing u with
  | nil =>
    cases h
    exact hkept
  | cons w es ih =>
    obtain ⟨hw, hes⟩ := List.forall_mem_cons.mp hreset
    rcases runEvents_cons_next h with ⟨i, v, hd, hx, hrest⟩ | ⟨r, hd, hrest⟩
    · have hbusy : i = .start → u.phase ≠ .idle := by
        rintro rfl
        obtain rfl := encode_of_decode hd
        exact hstart.head
      exact ih (hkept.exec hx (not_reset_of_decode hd hw) hbusy) hes
        (hstart.tail fun fs => runEvents_instr fs hd hx) hrest
    · exact ih hkept.useFault hes (hstart.tail fun fs => runEvents_rejected u fs hd) hrest

/-! ### The statement -/

/-- Settles O46: the accepted `START` keeps the measurement, and every later event of the attempt preserves
`MeasKeptUnlessOk`, whose second case the result excludes. -/
theorem failedAttemptKeepsTheMeasurement : Obligations.FailedAttemptKeepsTheMeasurement := by
  unfold Obligations.FailedAttemptKeepsTheMeasurement
  intro es s t hidle hreset hstart hrun hfail
  have hopen : ∀ fs, runEvents (encode .start :: fs) s = runEvents fs (respond false 0x0000 (openAttempt s)) :=
    fun fs => runEvents_instr fs (decode_encode .start) (execStart_of_idle hidle)
  have hkept : MeasKeptUnlessOk s (respond false 0x0000 (openAttempt s)) := .inl ⟨rfl, rfl⟩
  have hrest : NoAcceptedStart es (respond false 0x0000 (openAttempt s)) :=
    fun before after u he hu => hstart before after u he ((hopen before).trans hu)
  exact (hkept.runEvents hreset hrest ((hopen es).symm.trans hrun)).resolve_right fun ⟨_, hok⟩ => hfail hok

end Sys2Proof
end

section
/-! PROOFS of the family 70_reset_and_hazards: what `RESET` leaves behind, and what no other event clears (R190). -/

namespace Sys2Proof
open Machine

/-! ### The state after `RESET` -/

theorem exec_reset (d : Byte) (s : State) : exec (.reset d) s = .next (respond false 0x0000 (clearAll s)) := rfl

theorem pinctlWord_reset : pinctlWord State.reset = 0x0000 := by decide

theorem clearAll_meas_getElem (s : State) (i : Fin 13) : (clearAll s).meas[i] = 0x0000 :=
  Vector.getElem_replicate i.isLt

theorem statusWord_clearAll (s : State) : statusWord (clearAll s) = 0x0000 := statusWord_reset

theorem pinctlWord_clearAll (s : State) : pinctlWord (clearAll s) = 0x0000 := pinctlWord_reset

theorem answerRead_zero_after_reset {v : Word} (s : State) (hv : v = 0x0000) :
    answerRead v (respond false 0x0000 (clearAll s)) = .next (respond false 0x0000 (clearAll s)) := by
  rw [hv]
  rfl

/-- The reads that need an argument are the two words made of flags and the three fields whose index is a parameter;
every other register but `BUDGET` is one cleared element. -/
theorem exec_read_after_reset {i : Instr} (s : State) (hread : isRead i = true) :
    exec i (respond false 0x0000 (clearAll s)) =
      .next { respond false 0x0000 (clearAll s) with
        rdData := if i = .rdBudget then s.params.retryBudget else 0x0000 } := by
  cases i
  case nop | rx | empty | start | init | active | sleep | reset => cases hread
  case rdStatus => exact answerRead_zero_after_reset s (statusWord_clearAll s)
  case rdPinctl => exact answerRead_zero_after_reset s (pinctlWord_clearAll s)
  case rdPm1_0 | rdPm2_5 | rdPm10 => exact answerRead_zero_after_reset s (clearAll_meas_getElem s _)
  all_goals rfl

/-! ### What an event other than `RESET` cannot do -/

theorem exec_keeps_fault_set {i : Instr} {s t : State} (h : exec i s = .next t) (hreset : ∀ d, i ≠ .reset d)
    (hfault : s.fault = true) : t.fault = true := by
  by_cases hstart : i = .start
  · subst hstart
    exact (execStart_fault h).mpr (.inl hfault)
  · exact (exec_fault_of_ne h hstart hreset).trans hfault

theorem decodeFrame_keeps_measValid_set {s : State} (hvalid : s.measValid = true) :
    (decodeFrame s).measValid = true := by
  rcases decodeFrame_cases s with ⟨-, h⟩ | ⟨-, -, h⟩ | ⟨-, -, h⟩ <;> rw [h] <;> exact hvalid

theorem execRx_keeps_measValid_set {b : Byte} {s t : State} (h : execRx b s = .next t)
    (hvalid : s.measValid = true) : t.measValid = true := by
  rcases execRx_next h with ⟨-, rfl⟩ | ⟨-, -, rfl⟩ | ⟨-, -, rfl⟩ | ⟨-, hc⟩
  · exact hvalid
  · exact hvalid
  · exact hvalid
  · obtain ⟨-, u, rfl, ⟨-, rfl⟩ | ⟨-, rfl⟩⟩ := rxCollect_next hc
    · exact hvalid
    · exact decodeFrame_keeps_measValid_set hvalid

theorem exec_keeps_measValid_set {i : Instr} {s t : State} (h : exec i s = .next t) (hreset : ∀ d, i ≠ .reset d)
    (hvalid : s.measValid = true) : t.measValid = true := by
  rcases exec_next h with ⟨b, -, hx⟩ | ⟨-, hx⟩ | ⟨-, hx⟩ | ⟨-, rfl⟩ | ⟨-, rfl⟩ | ⟨-, rfl⟩ | ⟨d, rfl, -⟩ |
    ⟨-, v, rfl, -⟩
  · exact execRx_keeps_measValid_set hx hvalid
  · rcases execEmpty_next hx with ⟨-, rfl⟩ | ⟨-, -, rfl⟩ | ⟨-, -, rfl⟩ <;> exact hvalid
  · rcases execStart_next hx with ⟨-, rfl⟩ | ⟨-, rfl⟩ <;> exact hvalid
  · exact hvalid
  · exact hvalid
  · exact hvalid
  · exact absurd rfl (hreset d)
  · exact hvalid

/-- `DECODE` always records a verdict (R100). -/
theorem decodeFrame_result_ne_none (s : State) : (decodeFrame s).result ≠ .none := by
  rcases decodeFrame_cases s with ⟨-, h⟩ | ⟨-, -, h⟩ | ⟨-, -, h⟩ <;> rw [h] <;> simp

theorem execRx_keeps_phase_or_records {b : Byte} {s t : State} (h : execRx b s = .next t) (hbusy : s.phase ≠ .idle) :
    t.phase ≠ .idle ∨ t.result ≠ .none := by
  rcases execRx_next h with ⟨hidle, -⟩ | ⟨-, -, rfl⟩ | ⟨-, -, rfl⟩ | ⟨-, hc⟩
  · exact absurd hidle hbusy
  · simp
  · exact .inl hbusy
  · obtain ⟨-, u, rfl, ⟨-, rfl⟩ | ⟨-, rfl⟩⟩ := rxCollect_next hc
    · exact .inl hbusy
    · exact .inr (decodeFrame_result_ne_none _)

/-- An attempt in progress goes on or ends with a result, unless `RESET` abandons it (R195, R203). -/
theorem exec_keeps_phase_or_records {i : Instr} {s t : State} (h : exec i s = .next t) (hreset : ∀ d, i ≠ .reset d)
    (hbusy : s.phase ≠ .idle) : t.phase ≠ .idle ∨ t.result ≠ .none := by
  rcases exec_next h with ⟨b, -, hx⟩ | ⟨-, hx⟩ | ⟨-, hx⟩ | ⟨-, rfl⟩ | ⟨-, rfl⟩ | ⟨-, rfl⟩ | ⟨d, rfl, -⟩ |
    ⟨-, v, rfl, -⟩
  · exact execRx_keeps_phase_or_records hx hbusy
  · rcases execEmpty_next hx with ⟨hidle, -⟩ | ⟨-, -, rfl⟩ | ⟨-, -, rfl⟩
    · exact absurd hidle hbusy
    · simp
    · exact .inl hbusy
  · rcases execStart_next hx with ⟨hidle, -⟩ | ⟨-, rfl⟩
    · exact absurd hidle hbusy
    · exact .inl hbusy
  · exact .inl hbusy
  · exact .inl hbusy
  · exact .inl hbusy
  · exact absurd rfl (hreset d)
  · exact .inl hbusy

/-! ### The statement -/

/-- Settles O53: the state after `RESET` is `clearAll`'s, and each effect of the last clause contradicts one lemma on
the events other than `RESET`. -/
theorem resetClearsEveryElement : Obligations.ResetClearsEveryElement := by
  unfold Obligations.ResetClearsEveryElement
  refine ⟨fun w hk => decode_kind_reset hk, fun d s => ?_, fun i s t h hclears => ?_⟩
  · exact ⟨_, exec_reset d s, rfl, rfl, rfl, rfl, rfl, rfl, rfl, rfl, readByte_nil, clearAll_meas_getElem s,
      rfl, rfl, rfl, rfl, rfl, rfl, rfl, rfl, fun i hread => exec_read_after_reset s hread⟩
  · by_contra! hreset
    rcases hclears with ⟨hset, hclear⟩ | ⟨hset, hclear⟩ | ⟨hmeas, hok⟩ | ⟨hbusy, hidle, hnone⟩
    · exact absurd (exec_keeps_fault_set h hreset hset) (Bool.eq_false_iff.mp hclear)
    · exact absurd (exec_keeps_measValid_set h hreset hset) (Bool.eq_false_iff.mp hclear)
    · rcases exec_measKeptUnlessOk h hreset with ⟨hkept, -⟩ | ⟨-, hrec⟩
      · exact hmeas hkept
      · exact hok hrec
    · rcases exec_keeps_phase_or_records h hreset hbusy with hp | hr
      · exact hp hidle
      · exact hr hnone

end Sys2Proof
end

section
/-! PROOFS of the family other, the event word: decoding and encoding undo each other (R62 to R64), and the decoder
accepts exactly the legal words (R63, R66, R150). -/

namespace Sys2Proof
open Machine

/-! ### The three checks of a legal word, over the decoder's own fields -/

theorem kindLegal_iff (w : EventWord) :
    kindLegal w = true ↔ ¬ (0x8 ≤ (eventKind w).toNat ∧ (eventKind w).toNat ≤ 0xE) := by
  simp [kindLegal, eventKind_toNat, imp_iff_not_or]

theorem operandLegal_iff (w : EventWord) :
    operandLegal w = true ↔
      (eventKind w ∈ [0x0#4, 0x2#4, 0x3#4, 0x4#4, 0x5#4, 0x6#4] → eventOperand w = 0x00) := by
  simp [operandLegal, ← BitVec.toNat_inj, eventKind_toNat, eventOperand_toNat, imp_iff_not_or]

theorem registerLegal_iff (w : EventWord) :
    registerLegal w = true ↔ (eventKind w = 0x7 →
      ¬ ((0x0A ≤ (eventOperand w).toNat ∧ (eventOperand w).toNat ≤ 0x0F) ∨ 0x1D ≤ (eventOperand w).toNat)) := by
  have hk : eventKind w = 0x7 ↔ w.toNat / 256 = 7 := by
    rw [← BitVec.toNat_inj, eventKind_toNat]
    rfl
  rw [hk, eventOperand_toNat]
  simp only [registerLegal, Bool.or_eq_true, Bool.and_eq_true, Bool.not_eq_true', decide_eq_true_eq,
    decide_eq_false_iff_not]
  omega

/-- Every encoding is a legal word: one row lemma per constructor. -/
theorem wellFormedWord_encode (i : Instr) : wellFormedWord (encode i) = true := by
  cases i
  case rx b => exact (Laws.TableRow.rx b).2
  case reset d => exact (Laws.TableRow.reset d).2
  all_goals rfl

/-- An address that is not reserved names a register (R22). -/
theorem decodeRead_of_legal {a : Byte} (h : ¬ ((0x0A ≤ a.toNat ∧ a.toNat ≤ 0x0F) ∨ 0x1D ≤ a.toNat)) :
    ∃ i, decodeRead a = .instr i := by
  unfold decodeRead
  split
  case h_24 =>
    exfalso
    simp only [imp_false] at *
    bv_omega
  all_goals exact ⟨_, rfl⟩

/-- The decoder takes every word that passes the three checks, kind by kind (R64). -/
theorem decode_of_wellFormedWord {w : EventWord} (h : wellFormedWord w = true) : ∃ i, decode w = .instr i := by
  simp only [wellFormedWord, Bool.and_eq_true, kindLegal_iff, operandLegal_iff, registerLegal_iff] at h
  obtain ⟨⟨hkind, hoperand⟩, hregister⟩ := h
  rw [decode]
  generalize eventKind w = k at hkind hoperand hregister ⊢
  unfold decodeFields
  split
  case h_1 | h_8 => exact ⟨_, rfl⟩
  case h_9 => exact decodeRead_of_legal (hregister rfl)
  case h_10 =>
    exfalso
    simp only [imp_false] at *
    bv_omega
  all_goals exact ⟨_, if_pos (hoperand (by decide))⟩

/-! ### The statements -/

/-- Settles O1: each encoding is decoded by its kind and operand. -/
theorem decodeUndoesEncode : Obligations.DecodeUndoesEncode := by
  unfold Obligations.DecodeUndoesEncode
  exact decode_encode

/-- Settles O2: an accepted word is read back from its kind and its operand. -/
theorem encodeUndoesDecode : Obligations.EncodeUndoesDecode := by
  unfold Obligations.EncodeUndoesDecode
  exact fun _ _ => encode_of_decode

/-- Settles O4: an accepted word is an encoding, which is legal; a legal word is accepted kind by kind. -/
theorem decoderAcceptsExactlyTheLegalWords : Obligations.DecoderAcceptsExactlyTheLegalWords := by
  unfold Obligations.DecoderAcceptsExactlyTheLegalWords
  refine fun w => ⟨fun ⟨i, hi⟩ => ?_, decode_of_wellFormedWord⟩
  rw [← encode_of_decode hi]
  exact wellFormedWord_encode i

/-- Settles O5: fifteen closed facts, one per word. -/
theorem wordsOfTheSpecDecode : Obligations.WordsOfTheSpecDecode := by
  unfold Obligations.WordsOfTheSpecDecode
  decide

end Sys2Proof
end

section
/-! PROOFS of the family other, the checksum: its range (R105), what it depends on (R106), and the verdict on one
corrupted byte (R108). -/

namespace Sys2Proof
open Machine

/-! ### The range of the sum (R105) -/

theorem byteSum_header {m : Memory} (h0 : readByte m 0 = 0x42) (h1 : readByte m 1 = 0x4D)
    (h2 : readByte m 2 = 0x00) (h3 : readByte m 3 = 0x1C) : byteSum m 4 = 171 := by
  simp [byteSum, h0, h1, h2, h3]

/-- Four header bytes sum to 171, and 26 bytes of at most 255 follow. -/
theorem computedChecksum_range {m : Memory} (h0 : readByte m 0 = 0x42) (h1 : readByte m 1 = 0x4D)
    (h2 : readByte m 2 = 0x00) (h3 : readByte m 3 = 0x1C) :
    171 ≤ (computedChecksum m).toNat ∧ (computedChecksum m).toNat ≤ 6801 := by
  rw [computedChecksum_toNat, ← byteSum_header h0 h1 h2 h3]
  obtain ⟨hlo, hhi⟩ := byteSum_tail m 4 26
  rw [byteSum_header h0 h1 h2 h3] at hhi
  exact ⟨hlo, hhi⟩

/-! ### What the sum depends on (R106) -/

theorem byteSum_eq_list_sum (m : Memory) (n : Nat) :
    byteSum m n = (((List.range n).map (readByte m)).map BitVec.toNat).sum := by
  induction n with
  | zero => rfl
  | succ n ih => simp [byteSum, ih, List.range_succ]

/-- One byte changed below `n` changes the sum by as much. -/
theorem byteSum_differOnlyAt {m m' : Memory} {k n : Nat} (hk : k < n) (h : differOnlyAt k m m') :
    byteSum m' n + (readByte m k).toNat = byteSum m n + (readByte m' k).toNat := by
  obtain ⟨-, hsame⟩ := h
  have hmem : k ∈ Finset.range n := Finset.mem_range.mpr hk
  have hrest : ∑ a ∈ (Finset.range n).erase k, (readByte m' a).toNat =
      ∑ a ∈ (Finset.range n).erase k, (readByte m a).toNat :=
    Finset.sum_congr rfl fun a ha => by rw [hsame a (Finset.ne_of_mem_erase ha)]
  rw [byteSum_eq_sum_range, byteSum_eq_sum_range, ← Finset.sum_erase_add _ _ hmem, hrest,
    ← Finset.sum_erase_add _ _ hmem]
  omega

theorem computedChecksum_differOnlyAt {m n : Memory} {k : Nat} (hk : k < 30) (h : differOnlyAt k m n) :
    (computedChecksum n).toNat + (readByte m k).toNat = (computedChecksum m).toNat + (readByte n k).toNat := by
  rw [computedChecksum_toNat, computedChecksum_toNat]
  exact byteSum_differOnlyAt hk h

theorem computedChecksum_ne_of_differOnlyAt {m n : Memory} {k : Nat} (hk : k < 30) (h : differOnlyAt k m n) :
    computedChecksum m ≠ computedChecksum n := by
  intro heq
  have hsum := computedChecksum_differOnlyAt hk h
  rw [heq] at hsum
  exact h.1 (BitVec.eq_of_toNat_eq (Nat.add_left_cancel hsum))

/-! ### A pair of bytes and one change -/

theorem readPair_congr {m n : Memory} {k j : Nat} (h : differOnlyAt k m n) (hj : j ≠ k) (hj' : j + 1 ≠ k) :
    readPair n j = readPair m j := by
  rw [readPair, readPair, h.2 j hj, h.2 (j + 1) hj']

theorem readPair_ne_of_differOnlyAt {m n : Memory} {k j : Nat} (h : differOnlyAt k m n) (hk : k = j ∨ k = j + 1) :
    readPair n j ≠ readPair m j := by
  intro heq
  obtain ⟨hhi, hlo⟩ := be16_inj.mp heq
  rcases hk with rfl | rfl
  · exact h.1 hhi.symm
  · exact h.1 hlo.symm

/-! ### The verdict of `DECODE` (R100) -/

theorem verdict_of_length {m : Memory} (hlen : declaredLength m ≠ 28) : verdict m = .lengthMismatch := by
  rcases validate_cases m with ⟨-, hv⟩ | ⟨hl, -, -⟩ | ⟨hl, -, -⟩
  · simp only [verdict, hv, DecodeError.code]
  · exact absurd hl hlen
  · exact absurd hl hlen

theorem verdict_of_checksum {m : Memory} (hlen : declaredLength m = 28)
    (hsum : computedChecksum m ≠ storedChecksum m) : verdict m = .checksumMismatch := by
  rcases validate_cases m with ⟨hl, -⟩ | ⟨-, -, hv⟩ | ⟨-, hs, -⟩
  · exact absurd hlen hl
  · simp only [verdict, hv, DecodeError.code]
  · exact absurd hs hsum

theorem verdict_of_validFrame {m : Memory} (h : validFrame m) : verdict m = .ok := by
  obtain ⟨hlen, hsum⟩ := h
  rcases validate_cases m with ⟨hl, -⟩ | ⟨-, hs, -⟩ | ⟨-, -, hv⟩
  · exact absurd hlen hl
  · exact absurd hsum hs
  · simp only [verdict, hv]

theorem verdict_cases (m : Memory) :
    verdict m = .ok ∨ verdict m = .lengthMismatch ∨ verdict m = .checksumMismatch := by
  rcases validate_cases m with ⟨hlen, -⟩ | ⟨hlen, hsum, -⟩ | ⟨hlen, hsum, -⟩
  · exact .inr (.inl (verdict_of_length hlen))
  · exact .inr (.inr (verdict_of_checksum hlen hsum))
  · exact .inl (verdict_of_validFrame ⟨hlen, hsum⟩)

/-- The result `DECODE` records is the verdict on the buffer. -/
theorem decodeFrame_result (s : State) : (decodeFrame s).result = verdict s.buf := by
  rcases decodeFrame_cases s with ⟨hlen, h⟩ | ⟨hlen, hsum, h⟩ | ⟨hlen, hsum, h⟩ <;> rw [h]
  · exact (verdict_of_length hlen).symm
  · exact (verdict_of_checksum hlen hsum).symm
  · exact (verdict_of_validFrame ⟨hlen, hsum⟩).symm

theorem decodeFrame_phase (s : State) : (decodeFrame s).phase = .idle :=
  (decodeFrame_frame s).1

theorem decodeFrame_buf (s : State) : (decodeFrame s).buf = s.buf := by
  obtain ⟨-, -, -, -, -, -, hbuf, -⟩ := decodeFrame_frame s
  exact hbuf

theorem decodeFrame_cnt (s : State) : (decodeFrame s).cnt = s.cnt := by
  obtain ⟨-, -, hcnt, -⟩ := decodeFrame_frame s
  exact hcnt

theorem decodeFrame_events (s : State) : (decodeFrame s).events = s.events := by
  obtain ⟨-, -, -, -, -, -, -, -, -, -, -, hevents, -⟩ := decodeFrame_frame s
  exact hevents

/-- A valid frame is published whole (R103). -/
theorem decodeFrame_of_validFrame {s : State} (h : validFrame s.buf) : decodeFrame s = { s with
    phase := .idle, result := .ok, measValid := true
    meas := Vector.ofFn (fun i : Fin 13 => fieldValue s.buf i.val) } := by
  obtain ⟨hlen, hsum⟩ := h
  rcases decodeFrame_cases s with ⟨hl, -⟩ | ⟨-, hs, -⟩ | ⟨-, -, hdec⟩
  · exact absurd hlen hl
  · exact absurd hsum hs
  · exact hdec

/-! ### The statements -/

/-- Settles O27: thirty bytes of at most 255, four of them fixed by the header. -/
theorem checksumStaysInRange : Obligations.ChecksumStaysInRange := by
  unfold Obligations.ChecksumStaysInRange
  refine ⟨fun m => ?_, fun m h0 h1 h2 h3 => ?_⟩
  · rw [← byteSum_eq_sum_range]
    exact ⟨byteSum_le m 30, computedChecksum_toNat m⟩
  · obtain ⟨hlo, hhi⟩ := computedChecksum_range h0 h1 h2 h3
    refine ⟨hlo, hhi, fun hout heq => ?_⟩
    rw [heq] at hlo hhi
    omega

/-- Settles O28: the sum of a list of bytes is that of any permutation of it, and one change carries over to the
sum. -/
theorem checksumIgnoresOrderButNotOneChange : Obligations.ChecksumIgnoresOrderButNotOneChange := by
  unfold Obligations.ChecksumIgnoresOrderButNotOneChange
  refine ⟨fun m n hperm => BitVec.eq_of_toNat_eq ?_, fun m n k hk hdiff =>
    ⟨computedChecksum_differOnlyAt hk hdiff, computedChecksum_ne_of_differOnlyAt hk hdiff⟩⟩
  rw [computedChecksum_toNat, computedChecksum_toNat, byteSum_eq_list_sum, byteSum_eq_list_sum]
  exact (hperm.map BitVec.toNat).sum_eq

/-- Settles O29: a change at 2 or 3 shows in the declared length, one at 4 to 29 in the computed checksum alone, one
at 30 or 31 in the stored checksum alone. -/
theorem oneCorruptedByteIsRejected : Obligations.OneCorruptedByteIsRejected := by
  unfold Obligations.OneCorruptedByteIsRejected
  rintro m n k ⟨hlen, hsum⟩ hdiff
  refine ⟨fun hk => verdict_of_length ?_, fun ⟨hlo, hhi⟩ => verdict_of_checksum ?_ ?_⟩
  · rw [← hlen]
    exact readPair_ne_of_differOnlyAt hdiff hk
  · rw [← hlen]
    exact readPair_congr hdiff (by omega) (by omega)
  · by_cases hk : k < 30
    · have hstored : storedChecksum n = storedChecksum m := readPair_congr hdiff (by omega) (by omega)
      rw [hstored, ← hsum]
      exact (computedChecksum_ne_of_differOnlyAt hk hdiff).symm
    · have hcomputed : computedChecksum n = computedChecksum m :=
        computedChecksum_congr fun a ha => (hdiff.2 a (by omega)).symm
      rw [hcomputed, hsum]
      exact (readPair_ne_of_differOnlyAt hdiff (by omega)).symm

end Sys2Proof
end

section
/-! PROOFS of the family other, the invariants (R11 to R20): they hold right after reset, and every step keeps them. -/

namespace Sys2Proof
open Machine

/-! ### The part of the invariants that speaks of neither `PHASE` nor `RESULT`

An attempt carries it along to its last byte, where `DECODE` records the result. -/

/-- The fields of `Inv` that hold of an attempt in progress and of its outcome alike. -/
structure CarriedInv (s : State) : Prop where
  /-- R18, R40. -/
  bufWf : Memory.wf s.buf = true
  /-- R16. -/
  retryBound : s.retry.toNat ≤ s.params.retryBudget.toNat
  /-- R17. -/
  prevClear : s.prevValid = false → s.prev = 0x00
  /-- R82, R100, R107. -/
  marker : 2 ≤ s.cnt.toNat →
    readByte s.buf 0 = 0x42 ∧ readByte s.buf 1 = 0x4D ∧ s.prevValid = true ∧ s.prev = 0x4D
  /-- R13, R19. -/
  measClear : s.measValid = false → ∀ i : Fin 13, s.meas[i] = 0x0000

theorem Inv.carried {s : State} (hinv : Inv s) : CarriedInv s :=
  ⟨hinv.bufWf, hinv.retryBound, hinv.prevClear, hinv.marker, hinv.measClear⟩

/-- A state in an attempt has no result yet (R12). -/
theorem Inv.result_of_busy {s : State} (hinv : Inv s) (hbusy : s.phase ≠ .idle) : s.result = .none := by
  by_contra hresult
  exact hbusy (hinv.resultIdle hresult)

/-- A state without a result has no error payload (R20). -/
theorem Inv.payload_of_busy {s : State} (hinv : Inv s) (hbusy : s.phase ≠ .idle) :
    s.errExpected = 0x0000 ∧ s.errActual = 0x0000 :=
  hinv.errZero (by simp [hinv.result_of_busy hbusy]) (by simp [hinv.result_of_busy hbusy])

/-- The invariants of a state without a result. -/
theorem CarriedInv.of_running {s : State} (hc : CarriedInv s) (hresult : s.result = .none)
    (hbusy : s.phase ≠ .idle) (hhunt : s.phase = .hunt → s.cnt = 0)
    (hcollect : s.phase = .collect → 2 ≤ s.cnt.toNat ∧ s.cnt.toNat ≤ 31)
    (hpayload : s.errExpected = 0x0000 ∧ s.errActual = 0x0000) : Inv s where
  bufWf := hc.bufWf
  resultIdle h := absurd hresult h
  cntHunt := hhunt
  cntCollect := hcollect
  cntDecoded h := by simp [hresult] at h
  cntTimeout h := by simp [hresult] at h
  cntNone h := absurd h hbusy
  retryBound := hc.retryBound
  retryTimeout h := by simp [hresult] at h
  prevClear := hc.prevClear
  marker := hc.marker
  measClear := hc.measClear
  okPublished h := by simp [hresult] at h
  errZero _ _ := hpayload
  errLength h := by simp [hresult] at h
  errChecksum h := by simp [hresult] at h

/-! ### Reset -/

theorem inv_resetWith (p : Params) (es : List EventWord) : Inv (State.resetWith p es) := by
  constructor <;> simp [State.resetWith, wf_nil]

/-! ### The updates that keep the invariants

The invariants speak of no output, of no pin bit, of neither `FAULT` nor the pending events. -/

theorem Inv.respond {s : State} (hinv : Inv s) (p : Bool) (d : Word) : Inv (respond p d s) := by
  obtain ⟨⟩ := hinv
  constructor <;> assumption

theorem Inv.setFault {s : State} (hinv : Inv s) (v : Bool) : Inv (setFault v s) := by
  obtain ⟨⟩ := hinv
  constructor <;> assumption

theorem Inv.setEnCfg {s : State} (hinv : Inv s) (v : Bool) : Inv (setEnCfg v s) := by
  obtain ⟨⟩ := hinv
  constructor <;> assumption

theorem Inv.setEnLevel {s : State} (hinv : Inv s) (v : Bool) : Inv (setEnLevel v s) := by
  obtain ⟨⟩ := hinv
  constructor <;> assumption

theorem Inv.takeEvent {s : State} (hinv : Inv s) : Inv (takeEvent s) := by
  obtain ⟨⟩ := hinv
  constructor <;> assumption

theorem Inv.useFault {s : State} (hinv : Inv s) : Inv (useFault s) :=
  (hinv.setFault true).respond false 0x0000

/-- An accepted `START` (R80). -/
theorem Inv.openAttempt {s : State} (hinv : Inv s) : Inv (openAttempt s) := by
  have hc : CarriedInv (Machine.openAttempt s) :=
    ⟨hinv.bufWf, Nat.zero_le _, fun _ => rfl, fun h => absurd h (by simp), hinv.measClear⟩
  exact hc.of_running rfl (by simp) (fun _ => rfl) (fun h => by simp at h) ⟨rfl, rfl⟩

/-- A time-out ends the attempt with `RETRY` at the budget (R85, R161). -/
theorem Inv.raiseTimeout {s : State} (hinv : Inv s) (hbusy : s.phase ≠ .idle)
    (hspent : s.retry = s.params.retryBudget) : Inv (raiseTimeout s) where
  bufWf := hinv.bufWf
  resultIdle _ := rfl
  cntHunt h := by simp at h
  cntCollect h := by simp at h
  cntDecoded h := by simp at h
  cntTimeout _ := by
    cases hp : s.phase
    · exact absurd hp hbusy
    · exact .inl (hinv.cntHunt hp)
    · exact .inr (hinv.cntCollect hp)
  cntNone _ h := by simp at h
  retryBound := hinv.retryBound
  retryTimeout _ := hspent
  prevClear := hinv.prevClear
  marker := hinv.marker
  measClear := hinv.measClear
  okPublished h := by simp at h
  errZero _ _ := hinv.payload_of_busy hbusy
  errLength h := by simp at h
  errChecksum h := by simp at h

/-- An empty poll below the budget does not wrap `RETRY` (R85). -/
theorem Inv.chargePoll {s : State} (hinv : Inv s) (hbusy : s.phase ≠ .idle)
    (hunspent : s.retry ≠ s.params.retryBudget) : Inv (chargePoll s) := by
  have hbound : (s.retry + 1).toNat ≤ s.params.retryBudget.toNat := by
    have := hinv.retryBound
    bv_omega
  have hc : CarriedInv (Machine.chargePoll s) :=
    ⟨hinv.bufWf, hbound, hinv.prevClear, hinv.marker, hinv.measClear⟩
  exact hc.of_running (hinv.result_of_busy hbusy) hbusy hinv.cntHunt hinv.cntCollect (hinv.payload_of_busy hbusy)

/-- A byte scanned without a hit (R82). -/
theorem Inv.notePrev {s : State} (hinv : Inv s) (b : Byte) (hhunt : s.phase = .hunt) : Inv (notePrev b s) := by
  have hbusy : s.phase ≠ .idle := by simp [hhunt]
  have hcnt : s.cnt = 0 := hinv.cntHunt hhunt
  have hc : CarriedInv (Machine.notePrev b s) :=
    ⟨hinv.bufWf, hinv.retryBound, fun h => by simp at h, fun h => by simp [hcnt] at h, hinv.measClear⟩
  exact hc.of_running (hinv.result_of_busy hbusy) hbusy hinv.cntHunt hinv.cntCollect (hinv.payload_of_busy hbusy)

/-- The hit step: the marker's second byte has just been scanned (R82). -/
theorem Inv.recordHit {s : State} (hinv : Inv s) (hhunt : s.phase = .hunt) (hvalid : s.prevValid = true)
    (hprev : s.prev = 0x4D) : Inv (recordHit s) := by
  have hbusy : s.phase ≠ .idle := by simp [hhunt]
  have hwf : Memory.wf (writeByte (writeByte s.buf 0 marker0) 1 marker1) = true :=
    wf_writeByte _ 1 _ (by decide) (wf_writeByte _ 0 _ (by decide) hinv.bufWf)
  have hc : CarriedInv (Machine.recordHit s) :=
    ⟨hwf, hinv.retryBound, hinv.prevClear,
      fun _ => ⟨readByte_recordHit_zero s, readByte_recordHit_one s, hvalid, hprev⟩, hinv.measClear⟩
  exact hc.of_running (hinv.result_of_busy hbusy) (by simp) (fun h => by simp at h) (fun _ => by simp)
    (hinv.payload_of_busy hbusy)

/-- The state in which byte `b` has been appended to `BUF` and counted (R83). -/
def appendByte (b : Byte) (s : State) : State :=
  { s with buf := writeByte s.buf s.cnt.toNat b, cnt := s.cnt + 1, pop := true, rdData := 0x0000 }

@[simp] theorem appendByte_phase (b : Byte) (s : State) : (appendByte b s).phase = s.phase := rfl
@[simp] theorem appendByte_cnt (b : Byte) (s : State) : (appendByte b s).cnt = s.cnt + 1 := rfl
@[simp] theorem appendByte_pop (b : Byte) (s : State) : (appendByte b s).pop = true := rfl
@[simp] theorem appendByte_rdData (b : Byte) (s : State) : (appendByte b s).rdData = 0x0000 := rfl

theorem execRx_of_append {s : State} (b : Byte) (hcollect : s.phase = .collect) (hcnt : s.cnt.toNat < 32) :
    execRx b s = .next (if s.cnt = 31 then decodeFrame (appendByte b s) else appendByte b s) :=
  (execRx_of_collect b hcollect).trans (rxCollect_inside b s hcnt)

/-- Everything an answering append can do, over `appendByte`. -/
theorem rxCollect_append {b : Byte} {s t : State} (h : rxCollect b s = .next t) :
    s.cnt.toNat < 32 ∧
      ((s.cnt ≠ 31 ∧ t = appendByte b s) ∨ (s.cnt = 31 ∧ t = decodeFrame (appendByte b s))) := by
  obtain ⟨hlt, u, rfl, ht⟩ := rxCollect_next h
  exact ⟨hlt, ht⟩

/-- An append in `COLLECT` lies behind the marker. -/
theorem Inv.carried_appendByte {s : State} (hinv : Inv s) (b : Byte) (hcollect : s.phase = .collect) :
    CarriedInv (appendByte b s) := by
  obtain ⟨hlo, hhi⟩ := hinv.cntCollect hcollect
  obtain ⟨h0, h1, hvalid, hprev⟩ := hinv.marker hlo
  refine ⟨wf_writeByte _ _ _ (Nat.lt_succ_of_le hhi) hinv.bufWf, hinv.retryBound, hinv.prevClear,
    fun _ => ⟨?_, ?_, hvalid, hprev⟩, hinv.measClear⟩
  · exact (readByte_writeByte_other _ _ (by omega)).trans h0
  · exact (readByte_writeByte_other _ _ (by omega)).trans h1

/-- A byte that does not complete the frame (R83). -/
theorem Inv.appendByte {s : State} (hinv : Inv s) (b : Byte) (hcollect : s.phase = .collect) (h31 : s.cnt ≠ 31) :
    Inv (appendByte b s) := by
  have hbusy : s.phase ≠ .idle := by simp [hcollect]
  have hcnt := hinv.cntCollect hcollect
  have hcnt' : 2 ≤ (s.cnt + 1).toNat ∧ (s.cnt + 1).toNat ≤ 31 := by bv_omega
  exact (hinv.carried_appendByte b hcollect).of_running (hinv.result_of_busy hbusy) hbusy
    (fun h => by simp [hcollect] at h) (fun _ => hcnt') (hinv.payload_of_busy hbusy)

theorem CarriedInv.recordError {s : State} (hc : CarriedInv s) (r : Result) (e a : Word) :
    CarriedInv { s with phase := .idle, result := r, errExpected := e, errActual := a } :=
  ⟨hc.bufWf, hc.retryBound, hc.prevClear, hc.marker, hc.measClear⟩

/-- The invariants of a state in which `DECODE` has just recorded a result. -/
theorem CarriedInv.of_decoded {s : State} (hc : CarriedInv s) (hidle : s.phase = .idle) (hcnt : s.cnt = 32)
    (hnone : s.result ≠ .none) (htimeout : s.result ≠ .timeout)
    (hok : s.result = .ok → s.measValid = true ∧ declaredLength s.buf = 28 ∧
      computedChecksum s.buf = storedChecksum s.buf ∧ ∀ i : Fin 13, s.meas[i] = fieldValue s.buf i.val)
    (hzero : s.result = .ok → s.errExpected = 0x0000 ∧ s.errActual = 0x0000)
    (hlength : s.result = .lengthMismatch →
      s.errExpected = 28 ∧ s.errActual = declaredLength s.buf ∧ s.errActual ≠ 28)
    (hchecksum : s.result = .checksumMismatch →
      s.errExpected = computedChecksum s.buf ∧ s.errActual = storedChecksum s.buf ∧
      s.errActual ≠ s.errExpected ∧ 171 ≤ s.errExpected.toNat ∧ s.errExpected.toNat ≤ 6801) : Inv s where
  bufWf := hc.bufWf
  resultIdle _ := hidle
  cntHunt h := by simp [hidle] at h
  cntCollect h := by simp [hidle] at h
  cntDecoded _ := hcnt
  cntTimeout h := absurd h htimeout
  cntNone _ h := absurd h hnone
  retryBound := hc.retryBound
  retryTimeout h := absurd h htimeout
  prevClear := hc.prevClear
  marker := hc.marker
  measClear := hc.measClear
  okPublished := hok
  errZero hl hs := by
    cases hr : s.result
    case none => exact absurd hr hnone
    case ok => exact hzero hr
    case timeout => exact absurd hr htimeout
    case lengthMismatch => exact absurd hr hl
    case checksumMismatch => exact absurd hr hs
  errLength := hlength
  errChecksum := hchecksum

/-- `DECODE` of a full buffer: each verdict sets the result, the payload and the measurement together (R100 to
R103); the marker and the right length put the computed checksum in its range (R105). -/
theorem CarriedInv.decodeFrame {s : State} (hc : CarriedInv s) (hcnt : s.cnt = 32)
    (hpayload : s.errExpected = 0x0000 ∧ s.errActual = 0x0000) : Inv (decodeFrame s) := by
  rcases decodeFrame_cases s with ⟨hlen, h⟩ | ⟨hlen, hsum, h⟩ | ⟨hlen, hsum, h⟩ <;> rw [h]
  · exact (hc.recordError _ _ _).of_decoded rfl hcnt (by simp) (by simp)
      (by simp) (by simp) (fun _ => ⟨rfl, rfl, hlen⟩) (by simp)
  · obtain ⟨h0, h1, -, -⟩ := hc.marker (by simp [hcnt])
    obtain ⟨h2, h3⟩ := (declaredLength_eq_iff s.buf).mp hlen
    have hrange := computedChecksum_range h0 h1 h2 h3
    exact (hc.recordError _ _ _).of_decoded rfl hcnt (by simp) (by simp)
      (by simp) (by simp) (by simp) (fun _ => ⟨rfl, rfl, hsum.symm, hrange⟩)
  · have hc' : CarriedInv { s with
        phase := .idle, result := .ok, measValid := true
        meas := Vector.ofFn (fun i : Fin 13 => fieldValue s.buf i.val) } :=
      ⟨hc.bufWf, hc.retryBound, hc.prevClear, hc.marker, fun hv => Bool.noConfusion hv⟩
    exact hc'.of_decoded rfl hcnt (by simp) (by simp)
      (fun _ => ⟨rfl, hlen, hsum, fun i => Vector.getElem_ofFn i.isLt⟩) (fun _ => hpayload) (by simp) (by simp)

/-! ### Every step -/

theorem Inv.execRx {b : Byte} {s t : State} (hinv : Inv s) (h : execRx b s = .next t) : Inv t := by
  rcases execRx_next h with ⟨-, rfl⟩ | ⟨hhunt, hhit, rfl⟩ | ⟨hhunt, -, rfl⟩ | ⟨hcollect, hx⟩
  · exact hinv.respond _ _
  · obtain ⟨-, -, rfl⟩ := (isHit_iff s b).mp hhit
    exact ((hinv.notePrev _ hhunt).respond _ _).recordHit hhunt rfl rfl
  · exact (hinv.notePrev b hhunt).respond _ _
  · obtain ⟨-, ⟨h31, rfl⟩ | ⟨h31, rfl⟩⟩ := rxCollect_append hx
    · exact hinv.appendByte b hcollect h31
    · have hcnt : (Sys2Proof.appendByte b s).cnt = 32 := by
        show s.cnt + 1 = 32
        rw [h31]
        rfl
      exact (hinv.carried_appendByte b hcollect).decodeFrame hcnt (hinv.payload_of_busy (by simp [hcollect]))

theorem Inv.execEmpty {s t : State} (hinv : Inv s) (h : execEmpty s = .next t) : Inv t := by
  rcases execEmpty_next h with ⟨-, rfl⟩ | ⟨hbusy, hspent, rfl⟩ | ⟨hbusy, hunspent, rfl⟩
  · exact hinv.respond _ _
  · exact (hinv.respond _ _).raiseTimeout hbusy hspent
  · exact (hinv.respond _ _).chargePoll hbusy hunspent

theorem Inv.execStart {s t : State} (hinv : Inv s) (h : execStart s = .next t) : Inv t := by
  rcases execStart_next h with ⟨-, rfl⟩ | ⟨-, rfl⟩
  · exact hinv.openAttempt.respond _ _
  · exact hinv.useFault

theorem Inv.exec {i : Instr} {s t : State} (hinv : Inv s) (h : exec i s = .next t) : Inv t := by
  rcases exec_next h with ⟨b, -, hx⟩ | ⟨-, hx⟩ | ⟨-, hx⟩ | ⟨-, rfl⟩ | ⟨-, rfl⟩ | ⟨-, rfl⟩ | ⟨d, -, rfl⟩ |
    ⟨-, v, rfl, -⟩
  · exact hinv.execRx hx
  · exact hinv.execEmpty hx
  · exact hinv.execStart hx
  · exact (hinv.setEnCfg true).respond _ _
  · exact (hinv.setEnLevel true).respond _ _
  · exact (hinv.setEnLevel false).respond _ _
  · exact (inv_resetWith s.params s.events).respond _ _
  · exact hinv.respond _ _

/-- From a state that meets the invariants no event stops the machine: `COLLECT` has room in `BUF` (R15, R55). -/
theorem Inv.exec_answers {s : State} (hinv : Inv s) (i : Instr) : ∃ t, Machine.exec i s = .next t := by
  rcases exec_cases i s with ht | ⟨b, -, hcollect, hfull, -⟩
  · exact ht
  · have := hinv.cntCollect hcollect
    omega

/-! ### The statements -/

/-- Settles O56: the event is taken, and its meaning or the use fault keeps the invariants. -/
theorem everyStepKeepsTheInvariants : Obligations.EveryStepKeepsTheInvariants := by
  unfold Obligations.EveryStepKeepsTheInvariants
  intro s t hinv h
  rcases step_next h with ⟨i, -, hx⟩ | ⟨r, -, rfl⟩
  · exact hinv.takeEvent.exec hx
  · exact hinv.takeEvent.useFault

/-- Settles O10: an accepted word's meaning answers under the invariants, a rejected word always does. -/
theorem everyEventHasAnEffect : Obligations.EveryEventHasAnEffect := by
  unfold Obligations.EveryEventHasAnEffect
  intro s hinv
  rw [step]
  cases decode (nextWord s) with
  | instr i => exact hinv.takeEvent.exec_answers i
  | rejected r => exact ⟨_, takeReserved_eq r _⟩

/-- Settles O55: reset with any parameters and events to come, the defaults among them. -/
theorem resetMeetsTheInvariants : Obligations.ResetMeetsTheInvariants := by
  unfold Obligations.ResetMeetsTheInvariants
  exact ⟨inv_resetWith, inv_resetWith Params.default []⟩

end Sys2Proof
end

section
/-! PROOFS of the family other, one step and the events that only answer: the decoded event and nothing else (R5, R8),
an append past the buffer (log 6), the reads (R125 to R128) and `RESET` (R190, R191). -/

namespace Sys2Proof
open Machine

/-! ### One step -/

theorem step_of_decoded {s : State} {w : EventWord} {rest : List EventWord} {i : Instr}
    (he : s.events = w :: rest) (hd : decode w = .instr i) : step s = exec i { s with events := rest } := by
  have hw : nextWord s = w := by rw [nextWord, he]
  have ht : takeEvent s = { s with events := rest } := by rw [takeEvent, he, List.tail_cons]
  rw [step, hw, hd, ht]

theorem takeEvent_of_nothing_pending {s : State} (he : s.events = []) : takeEvent s = s := by
  rw [takeEvent, he, List.tail_nil, ← he]

/-- Settles O6: the word is taken and decoded, and its meaning runs. -/
theorem stepRunsTheDecodedEvent : Obligations.StepRunsTheDecodedEvent := by
  unfold Obligations.StepRunsTheDecodedEvent
  exact fun _ _ _ _ => step_of_decoded

/-- Settles O7: with nothing pending the word is `0x000`, which decodes to `NOP`. -/
theorem stepWithNothingPendingIsNop : Obligations.StepWithNothingPendingIsNop := by
  unfold Obligations.StepWithNothingPendingIsNop
  intro s he
  have hw : nextWord s = encode .nop := by rw [nextWord, he]; rfl
  rw [step, hw, decode_encode, takeEvent_of_nothing_pending he]
  rfl

/-! ### An append past the buffer (log 6) -/

/-- Settles O20: `exec` stops only there, so an answer contradicts the append's own bound. -/
theorem appendOutsideTheBufferStops : Obligations.AppendOutsideTheBufferStops := by
  unfold Obligations.AppendOutsideTheBufferStops
  intro b s hcollect hfull
  rcases exec_cases (.rx b) s with ⟨t, ht⟩ | ⟨c, -, -, -, hstop⟩
  · obtain ⟨hlt, -⟩ := rxCollect_next ((execRx_of_collect b hcollect).symm.trans ht)
    omega
  · exact hstop

/-! ### Reads -/

/-- A read answers its register and writes nothing but the outputs (R125). -/
theorem exec_read {i : Instr} (s : State) (hread : isRead i = true) :
    ∃ v : Word, exec i s = .next (respond false v s) := by
  cases i
  case nop | rx | empty | start | init | active | sleep | reset => cases hread
  all_goals exact ⟨_, rfl⟩

/-- Settles O35: every read is one answer. -/
theorem readsAnswerAndChangeNothing : Obligations.ReadsAnswerAndChangeNothing := by
  unfold Obligations.ReadsAnswerAndChangeNothing
  exact fun _ => exec_read

/-- The values `CNT` takes: the byte counted first is the marker's second (R15). -/
theorem Inv.cnt_cases {s : State} (hinv : Inv s) :
    s.cnt.toNat = 0 ∨ (2 ≤ s.cnt.toNat ∧ s.cnt.toNat ≤ 31) ∨ s.cnt.toNat = 32 := by
  cases hp : s.phase
  case hunt => exact .inl (by rw [hinv.cntHunt hp]; rfl)
  case collect => exact .inr (.inl (hinv.cntCollect hp))
  case idle =>
    cases hr : s.result
    case none => exact .inl (by rw [hinv.cntNone hp hr]; rfl)
    case timeout => exact (hinv.cntTimeout hr).elim (fun h => .inl (by rw [h]; rfl)) (fun h => .inr (.inl h))
    all_goals exact .inr (.inr (by rw [hinv.cntDecoded (by simp [hr])]; rfl))

/-- Settles O37: the register is `CNT`, whose values the invariants bound. -/
theorem rdCntShowsTheByteCount : Obligations.RdCntShowsTheByteCount := by
  unfold Obligations.RdCntShowsTheByteCount
  refine ⟨decode_encode .rdCnt, fun s => ⟨answerRead_eq _ s, fun hinv => ?_⟩⟩
  have hcnt := hinv.cnt_cases
  refine ⟨by omega, by omega, fun hdecoded => ?_, fun htimeout => ?_⟩
  · rw [hinv.cntDecoded hdecoded]
    rfl
  · exact (hinv.cntTimeout htimeout).imp_left fun h => by rw [h]; rfl

/-- Settles O38: the register is `RETRY`, bounded by the invariants. -/
theorem rdRetryShowsThePolls : Obligations.RdRetryShowsThePolls := by
  unfold Obligations.RdRetryShowsThePolls
  exact ⟨decode_encode .rdRetry, fun s => ⟨answerRead_eq _ s, fun hinv => ⟨hinv.retryBound, hinv.retryTimeout⟩⟩⟩

/-! ### `RESET` -/

/-- `RESET` answers the reset state of the same parameters and events, whose outputs are 0 already. -/
theorem exec_reset_eq_resetWith (d : Byte) (s : State) :
    exec (.reset d) s = .next (State.resetWith s.params s.events) := rfl

/-- Settles O54: power-on is the reset state of the default parameters with no event pending. -/
theorem powerOnEqualsReset : Obligations.PowerOnEqualsReset := by
  unfold Obligations.PowerOnEqualsReset
  intro d s hparams hevents
  rw [exec_reset_eq_resetWith, hparams, hevents]
  rfl

/-- Settles O58: the reset state is built from the two fields that stay. -/
theorem resetKeepsParametersAndEvents : Obligations.ResetKeepsParametersAndEvents := by
  unfold Obligations.ResetKeepsParametersAndEvents
  exact fun d s => ⟨_, exec_reset_eq_resetWith d s, rfl, rfl, rfl⟩

end Sys2Proof
end

section
/-! PROOFS of the family other, what one event may change: the phase (R86), the buffer (R55), the outputs (R5, R8), the
measurement (R19, R48), the outcome (R170, R195), and what it does not read (R31, R54, R119). -/

namespace Sys2Proof
open Machine

/-! ### `PHASE` follows the transition table (R86) -/

theorem execRx_phase {b : Byte} {s t : State} (h : execRx b s = .next t) : t.phase = nextPhase (.rx b) s := by
  rcases execRx_next h with ⟨hp, rfl⟩ | ⟨hp, hhit, rfl⟩ | ⟨hp, hmiss, rfl⟩ | ⟨hp, hx⟩
  · simp [nextPhase, hp]
  · simp only [nextPhase, hp, if_pos ((isHit_iff s b).mp hhit), recordHit_phase]
  · have hno : ¬ (s.prevValid = true ∧ s.prev = 0x42 ∧ b = 0x4D) := by
      rw [← isHit_iff, hmiss]
      exact Bool.false_ne_true
    simp only [nextPhase, hp, if_neg hno, respond_phase, notePrev_phase]
  · obtain ⟨-, ⟨h31, rfl⟩ | ⟨h31, rfl⟩⟩ := rxCollect_append hx
    · simp only [nextPhase, hp, if_neg h31, appendByte_phase]
    · simp only [nextPhase, hp, if_pos h31, decodeFrame_phase]

theorem execEmpty_phase {s t : State} (h : execEmpty s = .next t) : t.phase = nextPhase .empty s := by
  rcases execEmpty_next h with ⟨hp, rfl⟩ | ⟨hp, hspent, rfl⟩ | ⟨hp, hunspent, rfl⟩
  · simp [nextPhase, hp]
  · cases hs : s.phase
    case idle => exact absurd hs hp
    all_goals simp only [nextPhase, hs, if_pos hspent, raiseTimeout_phase]
  · cases hs : s.phase
    case idle => exact absurd hs hp
    all_goals simp only [nextPhase, hs, if_neg hunspent, chargePoll_phase, respond_phase]

theorem execStart_phase {s t : State} (h : execStart s = .next t) : t.phase = nextPhase .start s := by
  rcases execStart_next h with ⟨hp, rfl⟩ | ⟨hp, rfl⟩
  · simp [nextPhase, hp]
  · cases hs : s.phase
    case idle => exact absurd hs hp
    all_goals simp [nextPhase, hs]

theorem exec_phase {i : Instr} {s t : State} (h : exec i s = .next t) : t.phase = nextPhase i s := by
  cases i
  case rx b => exact execRx_phase h
  case empty => exact execEmpty_phase h
  case start => exact execStart_phase h
  all_goals
    cases h
    cases hs : s.phase <;> simp [nextPhase, hs]

/-- An empty poll that leaves an attempt is the time-out (R85). -/
theorem execEmpty_ends {s t : State} (h : execEmpty s = .next t) (hbusy : s.phase ≠ .idle) (hidle : t.phase = .idle) :
    s.retry = s.params.retryBudget ∧ t.result = .timeout := by
  rcases execEmpty_next h with ⟨hp, -⟩ | ⟨-, hspent, rfl⟩ | ⟨-, -, rfl⟩
  · exact absurd hp hbusy
  · exact ⟨hspent, rfl⟩
  · exact absurd hidle hbusy

/-- A byte that leaves an attempt is the 32nd, and the result is `DECODE`'s (R83, R100). -/
theorem execRx_ends {b : Byte} {s t : State} (h : execRx b s = .next t) (hbusy : s.phase ≠ .idle)
    (hidle : t.phase = .idle) :
    s.phase = .collect ∧ s.cnt = 31 ∧ t = decodeFrame (appendByte b s) := by
  rcases execRx_next h with ⟨hp, -⟩ | ⟨-, -, rfl⟩ | ⟨-, -, rfl⟩ | ⟨hp, hx⟩
  · exact absurd hp hbusy
  · cases hidle
  · exact absurd hidle hbusy
  · obtain ⟨-, ⟨-, rfl⟩ | ⟨h31, rfl⟩⟩ := rxCollect_append hx
    · exact absurd hidle hbusy
    · exact ⟨hp, h31, rfl⟩

/-- Settles O18: the phase event by event, and the result of each event that ends an attempt. -/
theorem phaseFollowsTheTransitionTable : Obligations.PhaseFollowsTheTransitionTable := by
  unfold Obligations.PhaseFollowsTheTransitionTable
  refine ⟨fun i s t h => ⟨exec_phase h, ?_, ?_, ?_⟩, fun r s t h => ?_⟩
  · rintro rfl hbusy hidle
    exact (execEmpty_ends h hbusy hidle).2
  · rintro b rfl hcollect hidle
    obtain ⟨-, -, rfl⟩ := execRx_ends h (by simp [hcollect]) hidle
    rw [decodeFrame_result]
    exact verdict_cases _
  · rintro rfl hbusy
    exact (execStart_fault h).mpr (.inr hbusy)
  · cases (takeReserved_eq r s).symm.trans h
    exact useFault_phase s

/-- Settles O50: only these three events go from an attempt to `IDLE`. -/
theorem attemptEndsOnlyAsSpecified : Obligations.AttemptEndsOnlyAsSpecified := by
  unfold Obligations.AttemptEndsOnlyAsSpecified
  intro i s t hbusy h hidle
  rcases exec_next h with ⟨b, rfl, hx⟩ | ⟨rfl, hx⟩ | ⟨-, hx⟩ | ⟨-, rfl⟩ | ⟨-, rfl⟩ | ⟨-, rfl⟩ | ⟨d, rfl, rfl⟩ |
    ⟨-, v, rfl, -⟩
  · obtain ⟨hcollect, h31, rfl⟩ := execRx_ends hx hbusy hidle
    refine .inr (.inl ⟨⟨b, rfl⟩, hcollect, h31, ?_, ?_⟩)
    · rw [decodeFrame_cnt, appendByte_cnt, h31]
      rfl
    · rw [decodeFrame_result, decodeFrame_buf]
  · exact .inl ⟨rfl, execEmpty_ends hx hbusy hidle⟩
  · rcases execStart_next hx with ⟨hp, -⟩ | ⟨-, rfl⟩
    · exact absurd hp hbusy
    · exact absurd hidle hbusy
  · exact absurd hidle hbusy
  · exact absurd hidle hbusy
  · exact absurd hidle hbusy
  · exact .inr (.inr ⟨⟨d, rfl⟩, rfl⟩)
  · exact absurd hidle hbusy

/-! ### Who writes `BUF` (R55) -/

theorem execRx_buf {b : Byte} {s t : State} {a : Nat} (h : execRx b s = .next t)
    (hne : readByte t.buf a ≠ readByte s.buf a) :
    (s.phase = .collect ∧ a = s.cnt.toNat) ∨ (s.phase = .hunt ∧ t.phase = .collect ∧ (a = 0 ∨ a = 1)) := by
  rcases execRx_next h with ⟨-, rfl⟩ | ⟨hp, -, rfl⟩ | ⟨-, -, rfl⟩ | ⟨hp, hx⟩
  · exact absurd rfl hne
  · refine .inr ⟨hp, rfl, ?_⟩
    by_contra! hother
    exact hne (readByte_recordHit_other _ hother.1 hother.2)
  · exact absurd rfl hne
  · refine .inl ⟨hp, ?_⟩
    by_contra hother
    obtain ⟨-, ⟨-, rfl⟩ | ⟨-, rfl⟩⟩ := rxCollect_append hx
    · exact hne (readByte_writeByte_other _ _ hother)
    · rw [decodeFrame_buf] at hne
      exact hne (readByte_writeByte_other _ _ hother)

/-- Settles O19: no event but `RX` and `RESET` writes the buffer. -/
theorem bufferIsWrittenOnlyInOrder : Obligations.BufferIsWrittenOnlyInOrder := by
  unfold Obligations.BufferIsWrittenOnlyInOrder
  intro i s t h hreset a hne
  rcases exec_next h with ⟨b, rfl, hx⟩ | ⟨-, hx⟩ | ⟨-, hx⟩ | ⟨-, rfl⟩ | ⟨-, rfl⟩ | ⟨-, rfl⟩ | ⟨d, rfl, -⟩ |
    ⟨-, v, rfl, -⟩
  · exact ⟨b, rfl, execRx_buf hx hne⟩
  · rcases execEmpty_next hx with ⟨-, rfl⟩ | ⟨-, -, rfl⟩ | ⟨-, -, rfl⟩ <;> exact absurd rfl hne
  · rcases execStart_next hx with ⟨-, rfl⟩ | ⟨-, rfl⟩ <;> exact absurd rfl hne
  · exact absurd rfl hne
  · exact absurd rfl hne
  · exact absurd rfl hne
  · exact absurd rfl (hreset d)
  · exact absurd rfl hne

/-! ### The outputs (R5, R8) -/

theorem execRx_outputs {b : Byte} {s t : State} (h : execRx b s = .next t) :
    t.pop = rxReady s ∧ t.rdData = 0x0000 := by
  rcases execRx_next h with ⟨hp, rfl⟩ | ⟨hp, -, rfl⟩ | ⟨hp, -, rfl⟩ | ⟨hp, hx⟩
  · simp [rxReady, hp]
  · simp [rxReady, hp]
  · simp [rxReady, hp]
  · obtain ⟨-, ⟨-, rfl⟩ | ⟨-, rfl⟩⟩ := rxCollect_append hx
    · simp [rxReady, hp]
    · obtain ⟨-, -, -, -, -, -, -, -, -, hpop, hdata, -⟩ := decodeFrame_frame (appendByte b s)
      rw [hpop, hdata]
      simp [rxReady, hp]

/-- No event but `RX` takes a byte (R8). -/
theorem exec_pop_of_not_rx {i : Instr} {s t : State} (h : exec i s = .next t) (hrx : ∀ b, i ≠ .rx b) :
    t.pop = false := by
  rcases exec_next h with ⟨b, rfl, -⟩ | ⟨-, hx⟩ | ⟨-, hx⟩ | ⟨-, rfl⟩ | ⟨-, rfl⟩ | ⟨-, rfl⟩ | ⟨d, -, rfl⟩ |
    ⟨-, v, rfl, -⟩
  · exact absurd rfl (hrx b)
  · rcases execEmpty_next hx with ⟨-, rfl⟩ | ⟨-, -, rfl⟩ | ⟨-, -, rfl⟩ <;> rfl
  · rcases execStart_next hx with ⟨-, rfl⟩ | ⟨-, rfl⟩ <;> rfl
  all_goals rfl

/-- No event but a read answers data (R49). -/
theorem exec_rdData_of_not_read {i : Instr} {s t : State} (h : exec i s = .next t) (hread : isRead i = false) :
    t.rdData = 0x0000 := by
  rcases exec_next h with ⟨b, -, hx⟩ | ⟨-, hx⟩ | ⟨-, hx⟩ | ⟨-, rfl⟩ | ⟨-, rfl⟩ | ⟨-, rfl⟩ | ⟨d, -, rfl⟩ |
    ⟨hi, v, rfl, hnop⟩
  · exact (execRx_outputs hx).2
  · rcases execEmpty_next hx with ⟨-, rfl⟩ | ⟨-, -, rfl⟩ | ⟨-, -, rfl⟩ <;> rfl
  · rcases execStart_next hx with ⟨-, rfl⟩ | ⟨-, rfl⟩ <;> rfl
  · rfl
  · rfl
  · rfl
  · rfl
  · exact hnop (hi.resolve_right (by simp [hread]))

/-- Settles O45: `RX` answers `rx_ready`, every other event takes no byte, and only a read answers data. -/
theorem outputsOfOneEvent : Obligations.OutputsOfOneEvent := by
  unfold Obligations.OutputsOfOneEvent
  refine fun i s t h => ⟨?_, exec_rdData_of_not_read h⟩
  by_cases hrx : ∃ b, i = .rx b
  · obtain ⟨b, rfl⟩ := hrx
    simp [(execRx_outputs h).1]
  · simp [hrx, exec_pop_of_not_rx h (not_exists.mp hrx)]

/-! ### The measurement (R19, R48) -/

/-- `DECODE` leaves the measurement alone or publishes a valid frame whole (R103). -/
theorem decodeFrame_meas (s : State) :
    ((decodeFrame s).meas = s.meas ∧ (decodeFrame s).measValid = s.measValid) ∨
    ((decodeFrame s).result = .ok ∧ (decodeFrame s).measValid = true ∧ validFrame (decodeFrame s).buf ∧
      ∀ j : Fin 13, (decodeFrame s).meas[j] = fieldValue (decodeFrame s).buf j.val) := by
  rcases decodeFrame_cases s with ⟨-, h⟩ | ⟨-, -, h⟩ | ⟨hlen, hsum, h⟩ <;> rw [h]
  · exact .inl ⟨rfl, rfl⟩
  · exact .inl ⟨rfl, rfl⟩
  · exact .inr ⟨rfl, rfl, ⟨hlen, hsum⟩, fun j => Vector.getElem_ofFn j.isLt⟩

/-- Settles O47: only `DECODE`, run by the 32nd byte, writes the measurement. -/
theorem measurementIsReplacedOnlyWhole : Obligations.MeasurementIsReplacedOnlyWhole := by
  unfold Obligations.MeasurementIsReplacedOnlyWhole
  intro i s t h hreset
  rcases exec_next h with ⟨b, rfl, hx⟩ | ⟨-, hx⟩ | ⟨-, hx⟩ | ⟨-, rfl⟩ | ⟨-, rfl⟩ | ⟨-, rfl⟩ | ⟨d, rfl, -⟩ |
    ⟨-, v, rfl, -⟩
  · rcases execRx_next hx with ⟨-, rfl⟩ | ⟨-, -, rfl⟩ | ⟨-, -, rfl⟩ | ⟨hcollect, hc⟩
    · exact .inl ⟨rfl, rfl⟩
    · exact .inl ⟨rfl, rfl⟩
    · exact .inl ⟨rfl, rfl⟩
    · obtain ⟨-, ⟨-, rfl⟩ | ⟨h31, rfl⟩⟩ := rxCollect_append hc
      · exact .inl ⟨rfl, rfl⟩
      · exact (decodeFrame_meas _).imp_right fun hpub => ⟨⟨b, rfl⟩, hcollect, h31, decodeFrame_phase _, hpub⟩
  · rcases execEmpty_next hx with ⟨-, rfl⟩ | ⟨-, -, rfl⟩ | ⟨-, -, rfl⟩ <;> exact .inl ⟨rfl, rfl⟩
  · rcases execStart_next hx with ⟨-, rfl⟩ | ⟨-, rfl⟩ <;> exact .inl ⟨rfl, rfl⟩
  · exact .inl ⟨rfl, rfl⟩
  · exact .inl ⟨rfl, rfl⟩
  · exact .inl ⟨rfl, rfl⟩
  · exact absurd rfl (hreset d)
  · exact .inl ⟨rfl, rfl⟩

/-! ### In `IDLE` (R170, R197), and what a byte leaves alone (R54) -/

/-- Settles O49: in `IDLE` a byte and a poll only answer, and the lifecycle events write the pin bits. -/
theorem outcomeStaysUntilStartOrReset : Obligations.OutcomeStaysUntilStartOrReset := by
  unfold Obligations.OutcomeStaysUntilStartOrReset
  intro i s t hidle hstart hreset h
  rcases exec_next h with ⟨b, -, hx⟩ | ⟨-, hx⟩ | ⟨hi, -⟩ | ⟨-, rfl⟩ | ⟨-, rfl⟩ | ⟨-, rfl⟩ | ⟨d, hi, -⟩ |
    ⟨-, v, rfl, -⟩
  · cases (execRx_of_idle b hidle).symm.trans hx
    rfl
  · cases (execEmpty_of_idle hidle).symm.trans hx
    rfl
  · exact absurd hi hstart
  · rfl
  · rfl
  · rfl
  · exact absurd hi (hreset d)
  · rfl

/-- Settles O52: each case of `RX` leaves these fields alone, `DECODE` too. -/
theorem bytesAreOnlyData : Obligations.BytesAreOnlyData := by
  unfold Obligations.BytesAreOnlyData
  intro b s t h
  rcases execRx_next h with ⟨-, rfl⟩ | ⟨hp, -, rfl⟩ | ⟨hp, -, rfl⟩ | ⟨hp, hx⟩
  · exact ⟨rfl, rfl, rfl, rfl, rfl, rfl, fun _ => rfl⟩
  · exact ⟨rfl, rfl, rfl, rfl, rfl, rfl, fun hidle => by simp [hp] at hidle⟩
  · exact ⟨rfl, rfl, rfl, rfl, rfl, rfl, fun hidle => by simp [hp] at hidle⟩
  · obtain ⟨-, ⟨-, rfl⟩ | ⟨-, rfl⟩⟩ := rxCollect_append hx
    · exact ⟨rfl, rfl, rfl, rfl, rfl, rfl, fun hidle => by simp [hp] at hidle⟩
    · obtain ⟨-, hfault, -, hretry, -, -, -, hcfg, hlevel, -, -, hevents, hparams⟩ :=
        decodeFrame_frame (appendByte b s)
      exact ⟨hfault, hretry, hcfg, hlevel, hparams, hevents, fun hidle => by simp [hp] at hidle⟩

/-! ### The hidden elements show in no output (R31, R18) -/

/-- Settles O51: a read answers a register that is not hidden; any other event answers `rx_ready` and no data, and it
stops or not by `PHASE` and `CNT` alone. -/
theorem hiddenStateShowsInNoOutput : Obligations.HiddenStateShowsInNoOutput := by
  unfold Obligations.HiddenStateShowsInNoOutput
  intro i s t p v m h
  cases hread : isRead i
  case true =>
    cases i
    case nop | rx | empty | start | init | active | sleep | reset => cases hread
    all_goals
      cases h
      exact ⟨_, rfl, rfl, rfl⟩
  case false =>
    rcases exec_cases i { s with prev := p, prevValid := v, buf := m } with ⟨t', h'⟩ | ⟨b, rfl, hp, hfull, -⟩
    · have hpop := (outputsOfOneEvent i s t h).1
      have hpop' := (outputsOfOneEvent i _ t' h').1
      exact ⟨t', h', Bool.eq_iff_iff.mpr (hpop'.trans hpop.symm),
        (exec_rdData_of_not_read h' hread).trans (exec_rdData_of_not_read h hread).symm⟩
    · cases (appendOutsideTheBufferStops b s hp hfull).symm.trans h

/-! ### The pin bits (R119) -/

/-- The same state with the pin bits at `c` and `l`. -/
def setPin (c l : Bool) (s : State) : State := { s with enCfg := c, enLevel := l }

@[simp] theorem setPin_buf (c l : Bool) (s : State) : (setPin c l s).buf = s.buf := rfl

theorem decodeFrame_setPin (c l : Bool) (s : State) :
    decodeFrame (setPin c l s) = setPin c l (decodeFrame s) := by
  cases hv : validate s.buf <;> simp only [decodeFrame, setPin_buf, hv] <;> rfl

theorem execRx_setPin {b : Byte} {s t : State} (c l : Bool) (h : execRx b s = .next t) :
    execRx b (setPin c l s) = .next (setPin c l t) := by
  rcases execRx_next h with ⟨hp, rfl⟩ | ⟨hp, hhit, rfl⟩ | ⟨hp, hmiss, rfl⟩ | ⟨hp, hx⟩
  · exact execRx_of_idle b hp
  · rw [execRx_of_hunt (s := setPin c l s) b hp, rxHunt_of_hit (s := setPin c l s) hhit]
    rfl
  · rw [execRx_of_hunt (s := setPin c l s) b hp,
      rxHunt_of_miss (s := setPin c l s) (ne_true_of_eq_false hmiss)]
    rfl
  · obtain ⟨hlt, ⟨h31, rfl⟩ | ⟨h31, rfl⟩⟩ := rxCollect_append hx
    · exact (execRx_of_append (s := setPin c l s) b hp hlt).trans (congrArg _ (if_neg h31))
    · rw [← decodeFrame_setPin]
      exact (execRx_of_append (s := setPin c l s) b hp hlt).trans (congrArg _ (if_pos h31))

theorem execEmpty_setPin {s t : State} (c l : Bool) (h : execEmpty s = .next t) :
    execEmpty (setPin c l s) = .next (setPin c l t) := by
  rcases execEmpty_next h with ⟨hp, rfl⟩ | ⟨hp, hspent, rfl⟩ | ⟨hp, hunspent, rfl⟩
  · exact execEmpty_of_idle hp
  · exact execEmpty_of_spent hp hspent
  · exact execEmpty_of_unspent hp hunspent

theorem execStart_setPin {s t : State} (c l : Bool) (h : execStart s = .next t) :
    execStart (setPin c l s) = .next (setPin c l t) := by
  rcases execStart_next h with ⟨hp, rfl⟩ | ⟨hp, rfl⟩
  · exact execStart_of_idle hp
  · exact execStart_of_busy hp

/-- An event other than `RD PINCTL` answers the same whatever the pin bits are, up to those bits. -/
theorem exec_setPin {i : Instr} {s t : State} (c l : Bool) (hi : i ≠ .rdPinctl) (h : exec i s = .next t) :
    ∃ c' l', exec i (setPin c l s) = .next (setPin c' l' t) := by
  cases i
  case rx b => exact ⟨c, l, execRx_setPin c l h⟩
  case empty => exact ⟨c, l, execEmpty_setPin c l h⟩
  case start => exact ⟨c, l, execStart_setPin c l h⟩
  case init => cases h; exact ⟨true, l, rfl⟩
  case active => cases h; exact ⟨c, true, rfl⟩
  case sleep => cases h; exact ⟨c, false, rfl⟩
  case reset d => cases h; exact ⟨false, false, rfl⟩
  case rdPinctl => exact absurd rfl hi
  all_goals cases h; exact ⟨c, l, rfl⟩

/-- Settles O33: the two runs differ in the pin bits alone, and each lifecycle event is one write of a pin bit. -/
theorem framePathIgnoresThePin : Obligations.FramePathIgnoresThePin := by
  unfold Obligations.FramePathIgnoresThePin
  refine ⟨fun i s t c l hi h => ?_, fun i s t hi h => ?_⟩
  · obtain ⟨c', l', h'⟩ := exec_setPin c l hi h
    exact ⟨_, h', rfl⟩
  · rcases hi with rfl | rfl | rfl <;> cases h <;> rfl

end Sys2Proof
end

section
/-! PROOFS of the family other, runs of events: `NOP` may be dropped (R149), empty polls within the budget (R85, R89),
and a hunt without a marker (R90, R202). -/

namespace Sys2Proof
open Machine

/-! ### No event reads the latched outputs, and `NOP` may be dropped (R149) -/

theorem execRx_respond (b : Byte) (p : Bool) (d : Word) (s : State) :
    execRx b (respond p d s) = execRx b s := by
  cases hp : s.phase
  · rw [execRx_of_idle b hp, execRx_of_idle (s := respond p d s) b hp]
    rfl
  · rw [execRx_of_hunt b hp, execRx_of_hunt (s := respond p d s) b hp]
    rfl
  · rw [execRx_of_collect b hp, execRx_of_collect (s := respond p d s) b hp]
    by_cases hc : s.cnt.toNat < 32
    · exact (rxCollect_inside b (respond p d s) hc).trans (rxCollect_inside b s hc).symm
    · simp [rxCollect, storeBuf, frameLen, hc]

/-- Every event writes both outputs and reads neither. -/
theorem exec_respond (i : Instr) (p : Bool) (d : Word) (s : State) : exec i (respond p d s) = exec i s := by
  cases i
  case rx b => exact execRx_respond b p d s
  all_goals rfl

theorem exec_congr {s s' : State} (h : withoutOutputs s' = withoutOutputs s) (i : Instr) : exec i s' = exec i s :=
  calc exec i s' = exec i (withoutOutputs s') := (exec_respond i false 0x0000 s').symm
    _ = exec i (withoutOutputs s) := by rw [h]
    _ = exec i s := exec_respond i false 0x0000 s

theorem useFault_congr {s s' : State} (h : withoutOutputs s' = withoutOutputs s) : useFault s' = useFault s :=
  calc useFault s' = useFault (withoutOutputs s') := rfl
    _ = useFault (withoutOutputs s) := by rw [h]
    _ = useFault s := rfl

/-- The induction over a run: dropping a `NOP` changes the latched outputs only, which the next event does not read. -/
theorem runEvents_dropNop {es : List EventWord} {s s' t : State} (hs : withoutOutputs s' = withoutOutputs s)
    (h : runEvents es s = .next t) :
    ∃ t', runEvents (es.filter (fun w => w != 0x000)) s' = .next t' ∧ withoutOutputs t' = withoutOutputs t := by
  induction es generalizing s s' with
  | nil =>
    cases h
    exact ⟨s', rfl, hs⟩
  | cons w es ih =>
    by_cases hw : w = 0x000
    · subst hw
      have hnop : runEvents (encode .nop :: es) s = runEvents es (respond false 0x0000 s) :=
        runEvents_instr es (decode_encode .nop) rfl
      rw [List.filter_cons_of_neg (by simp)]
      exact ih (s := respond false 0x0000 s) hs (hnop.symm.trans h)
    · rw [List.filter_cons_of_pos (by simpa using hw)]
      rcases runEvents_cons_next h with ⟨i, u, hd, hx, hrest⟩ | ⟨r, hd, hrest⟩
      · rw [runEvents_instr _ hd ((exec_congr hs i).trans hx)]
        exact ih rfl hrest
      · rw [runEvents_rejected _ _ hd]
        exact ih (congrArg withoutOutputs (useFault_congr hs)) hrest

/-- Settles O34: by the induction over the run, from the same state. -/
theorem nopDoesNothingAndMayBeDropped : Obligations.NopDoesNothingAndMayBeDropped := by
  unfold Obligations.NopDoesNothingAndMayBeDropped
  exact ⟨decode_encode .nop, fun _ => rfl, fun _ _ _ => runEvents_dropNop rfl⟩

/-! ### Empty polls (R85) -/

theorem runEvents_empty {s t : State} (es : List EventWord) (h : execEmpty s = .next t) :
    runEvents (encode .empty :: es) s = runEvents es t :=
  runEvents_instr es (decode_encode .empty) h

theorem idlePolls_succ (n : Nat) : idlePolls (n + 1) = idlePolls n ++ [encode .empty] :=
  List.replicate_succ'

/-- One poll and `n` more are `n + 1`. -/
theorem add_one_add_ofNat (r : Word) (n : Nat) : r + 1 + BitVec.ofNat 16 n = r + BitVec.ofNat 16 (n + 1) := by
  rw [BitVec.add_assoc, Nat.add_comm n 1, BitVec.ofNat_add]
  rfl

/-- Below the budget a poll is charged, and the polls after it have as much less left (R85). -/
theorem retry_of_budget_left {s : State} {n : Nat} (hbudget : s.retry.toNat + (n + 1) ≤ s.params.retryBudget.toNat) :
    s.retry ≠ s.params.retryBudget ∧ (s.retry + 1).toNat + n ≤ s.params.retryBudget.toNat := by
  have hlt := s.params.retryBudget.isLt
  have hsucc : (s.retry + 1).toNat = s.retry.toNat + 1 := BitVec.toNat_add_of_lt (by simp; omega)
  refine ⟨fun heq => ?_, by omega⟩
  rw [heq] at hbudget
  omega

/-- Polls within the budget add to `RETRY` and change nothing else but the outputs. -/
theorem runEvents_polls {s : State} (n : Nat) (hbusy : s.phase ≠ .idle)
    (hbudget : s.retry.toNat + n ≤ s.params.retryBudget.toNat) :
    ∃ o d, runEvents (idlePolls n) s =
      .next { s with retry := s.retry + BitVec.ofNat 16 n, pop := o, rdData := d } := by
  induction n generalizing s with
  | zero => exact ⟨s.pop, s.rdData, by rw [BitVec.add_zero]; rfl⟩
  | succ n ih =>
    obtain ⟨hunspent, hleft⟩ := retry_of_budget_left hbudget
    obtain ⟨o, d, hrun⟩ := ih (s := chargePoll (respond false 0x0000 s)) hbusy hleft
    refine ⟨o, d, (runEvents_empty _ (execEmpty_of_unspent hbusy hunspent)).trans (hrun.trans ?_)⟩
    rw [← add_one_add_ofNat]
    rfl

/-- Settles O21: the polls within the budget, then one more poll with `RETRY` at the budget. -/
theorem budgetIsToleratedThenTimesOut : Obligations.BudgetIsToleratedThenTimesOut := by
  unfold Obligations.BudgetIsToleratedThenTimesOut
  refine fun s n hbusy => ⟨fun hbudget => ?_, fun hspent => ?_⟩
  · obtain ⟨o, d, hrun⟩ := runEvents_polls n hbusy hbudget
    exact ⟨_, hrun, rfl⟩
  · obtain ⟨o, d, hrun⟩ := runEvents_polls n hbusy hspent.le
    have hretry : s.retry + BitVec.ofNat 16 n = s.params.retryBudget := by
      apply BitVec.eq_of_toNat_eq
      rw [← hspent]
      have := s.params.retryBudget.isLt
      simp
      omega
    rw [hretry] at hrun
    rw [idlePolls_succ, runEvents_append _ hrun]
    exact ⟨_, runEvents_empty [] (execEmpty_of_spent hbusy rfl), rfl⟩

/-! ### A hunt (R82, R89, R90) -/

theorem runEvents_hit {b : Byte} {s : State} (es : List EventWord) (hhunt : s.phase = .hunt)
    (hhit : isHit s b = true) :
    runEvents (encode (.rx b) :: es) s = runEvents es (recordHit (respond true 0x0000 (notePrev b s))) :=
  runEvents_rx es ((execRx_of_hunt b hhunt).trans (congrArg _ (rxHunt_of_hit hhit)))

theorem runEvents_miss {b : Byte} {s : State} (es : List EventWord) (hhunt : s.phase = .hunt)
    (hmiss : ¬ isHit s b = true) :
    runEvents (encode (.rx b) :: es) s = runEvents es (respond true 0x0000 (notePrev b s)) :=
  runEvents_rx es ((execRx_of_hunt b hhunt).trans (congrArg _ (rxHunt_of_miss hmiss)))

/-- Settles O22: the polls leave the look-back byte, so `0x4D` is a hit. -/
theorem splitMarkerIsFound : Obligations.SplitMarkerIsFound := by
  unfold Obligations.SplitMarkerIsFound
  intro s n hhunt hvalid hprev hbudget
  obtain ⟨o, d, hrun⟩ := runEvents_polls n (by simp [hhunt]) hbudget
  rw [runEvents_append _ hrun, chunk_cons]
  exact ⟨_, runEvents_hit [] hhunt ((isHit_iff _ _).mpr ⟨hvalid, hprev, rfl⟩), rfl, rfl,
    readByte_recordHit_zero _, readByte_recordHit_one _, rfl⟩

/-- The byte a hunt still remembers: what the next one may complete a marker with (R17). -/
def lookBack (s : State) : List Byte := if s.prevValid then [s.prev] else []

theorem lookBack_of_invalid {s : State} (h : s.prevValid = false) : lookBack s = [] := by
  simp [lookBack, h]

theorem holdsMarker_iff_infix (bs : List Byte) : holdsMarker bs ↔ [0x42, 0x4D] <:+: bs :=
  ⟨fun ⟨before, after, h⟩ => ⟨before, after, h.symm⟩, fun ⟨before, after, h⟩ => ⟨before, after, h.symm⟩⟩

theorem holdsMarker.append_left {bs : List Byte} (h : holdsMarker bs) (as : List Byte) : holdsMarker (as ++ bs) := by
  rw [holdsMarker_iff_infix] at h ⊢
  exact h.trans (List.suffix_append as bs).isInfix

/-- A hit means that the look-back byte and the byte are the marker. -/
theorem holdsMarker_of_hit {s : State} {b : Byte} (bs : List Byte) (h : isHit s b = true) :
    holdsMarker (lookBack s ++ b :: bs) := by
  obtain ⟨hvalid, hprev, rfl⟩ := (isHit_iff s b).mp h
  exact ⟨[], bs, by simp [lookBack, hvalid, hprev]⟩

/-- The induction over a stretch of the stream: bytes that complete no marker become the look-back byte, polls within
the budget are charged, and nothing else changes. -/
theorem runEvents_hunt {xs : List (Option Byte)} {s : State} (hhunt : s.phase = .hunt)
    (hno : ¬ holdsMarker (lookBack s ++ xs.filterMap id))
    (hbudget : none ∈ xs → s.retry.toNat + xs.count none ≤ s.params.retryBudget.toNat) :
    ∃ p v o d, runEvents (streamWords xs) s = .next { s with
      retry := s.retry + BitVec.ofNat 16 (xs.count none), prev := p, prevValid := v, pop := o, rdData := d } := by
  induction xs generalizing s with
  | nil =>
    refine ⟨s.prev, s.prevValid, s.pop, s.rdData, ?_⟩
    rw [List.count_nil, BitVec.add_zero]
    rfl
  | cons x xs ih =>
    cases x with
    | some b =>
      have hmiss : ¬ isHit s b = true := fun hhit => hno (holdsMarker_of_hit _ hhit)
      obtain ⟨p, v, o, d, hrun⟩ := ih (s := respond true 0x0000 (notePrev b s)) hhunt
        (fun hm => hno (hm.append_left (lookBack s)))
        (fun hmem => by simpa using hbudget (List.mem_cons_of_mem _ hmem))
      refine ⟨p, v, o, d, (runEvents_miss _ hhunt hmiss).trans (hrun.trans ?_)⟩
      rw [List.count_cons_of_ne (by simp)]
      rfl
    | none =>
      rw [List.count_cons_self] at hbudget ⊢
      obtain ⟨hunspent, hleft⟩ := retry_of_budget_left (hbudget List.mem_cons_self)
      have hbusy : s.phase ≠ .idle := by simp [hhunt]
      obtain ⟨p, v, o, d, hrun⟩ := ih (s := chargePoll (respond false 0x0000 s)) hhunt hno (fun _ => hleft)
      refine ⟨p, v, o, d, (runEvents_empty _ (execEmpty_of_unspent hbusy hunspent)).trans (hrun.trans ?_)⟩
      rw [← add_one_add_ofNat]
      rfl

theorem chunk_eq_streamWords (bs : List Byte) : chunk bs = streamWords (bs.map some) := by
  simp [chunk, streamWords]

/-- Bytes alone need no budget. -/
theorem runEvents_hunt_chunk {bs : List Byte} {s : State} (hhunt : s.phase = .hunt)
    (hno : ¬ holdsMarker (lookBack s ++ bs)) :
    ∃ p v o d, runEvents (chunk bs) s = .next { s with prev := p, prevValid := v, pop := o, rdData := d } := by
  have hcount : (bs.map some).count none = 0 := List.count_eq_zero.mpr (by simp)
  obtain ⟨p, v, o, d, hrun⟩ := runEvents_hunt (xs := bs.map some) hhunt (by simpa using hno) (by simp)
  rw [hcount, BitVec.add_zero] at hrun
  exact ⟨p, v, o, d, by rw [chunk_eq_streamWords]; exact hrun⟩

/-- Settles O23: a hunt that has scanned no byte remembers none. -/
theorem huntWithoutMarkerNeverEnds : Obligations.HuntWithoutMarkerNeverEnds := by
  unfold Obligations.HuntWithoutMarkerNeverEnds
  refine ⟨fun s bs hhunt hvalid hno => ?_, fun s xs hhunt hvalid hno hbudget => ?_⟩
  · obtain ⟨p, v, o, d, hrun⟩ := runEvents_hunt_chunk hhunt (by rwa [lookBack_of_invalid hvalid, List.nil_append])
    exact ⟨_, hrun, hhunt, rfl, rfl, rfl, rfl, rfl⟩
  · obtain ⟨p, v, o, d, hrun⟩ :=
      runEvents_hunt hhunt (by rwa [lookBack_of_invalid hvalid, List.nil_append]) (fun _ => hbudget)
    exact ⟨_, hrun, hhunt, rfl, rfl, rfl, rfl, rfl⟩

end Sys2Proof
end

section
/-! PROOFS of the family other, whole frames: the bytes of `COLLECT` in the order received (R42, R203), a buffer that
holds a well-formed frame (R71), and the measurement it gives, also after noise (R91, R92). -/

namespace Sys2Proof
open Machine

/-! ### `COLLECT` up to the 32nd byte (R42, R203) -/

theorem readByte_appendByte_same (b : Byte) (s : State) : readByte (appendByte b s).buf s.cnt.toNat = b :=
  readByte_writeByte_same _ _ _

theorem readByte_appendByte_other (b : Byte) (s : State) {a : Nat} (ha : a ≠ s.cnt.toNat) :
    readByte (appendByte b s).buf a = readByte s.buf a :=
  readByte_writeByte_other _ _ ha

theorem runEvents_append_byte {b : Byte} {s : State} (es : List EventWord) (hcollect : s.phase = .collect)
    (hcnt : s.cnt.toNat < 31) : runEvents (encode (.rx b) :: es) s = runEvents es (appendByte b s) := by
  have h31 : s.cnt ≠ 31 := by bv_omega
  exact runEvents_rx es ((execRx_of_append b hcollect (by omega)).trans (congrArg _ (if_neg h31)))

theorem runEvents_last_byte {b : Byte} {s : State} (es : List EventWord) (hcollect : s.phase = .collect)
    (hcnt : s.cnt.toNat = 31) :
    runEvents (encode (.rx b) :: es) s = runEvents es (decodeFrame (appendByte b s)) := by
  have h31 : s.cnt = 31 := BitVec.eq_of_toNat_eq hcnt
  exact runEvents_rx es ((execRx_of_append b hcollect (by omega)).trans (congrArg _ (if_pos h31)))

/-- `u` is `s` after the bytes `bs` have been appended: `BUF` holds them from `CNT` on, and what was below. -/
structure Appended (s u : State) (bs : List Byte) : Prop where
  cnt : u.cnt.toNat = s.cnt.toNat + bs.length
  events : u.events = s.events
  stored : ∀ (k : Nat) (b : Byte), bs[k]? = some b → readByte u.buf (s.cnt.toNat + k) = b
  below : ∀ a, a < s.cnt.toNat → readByte u.buf a = readByte s.buf a

theorem appended_one (b : Byte) {s : State} (hcnt : s.cnt.toNat < 32) : Appended s (appendByte b s) [b] where
  cnt := BitVec.toNat_add_of_lt (by simp; omega)
  events := rfl
  stored k c hk := by
    obtain ⟨rfl, rfl⟩ : k = 0 ∧ b = c := by simpa [List.getElem?_singleton] using hk
    exact readByte_appendByte_same b s
  below a ha := readByte_appendByte_other b s (Nat.ne_of_lt ha)

theorem Appended.cons {s u : State} {b : Byte} {bs : List Byte} (hcnt : s.cnt.toNat < 32)
    (h : Appended (appendByte b s) u bs) : Appended s u (b :: bs) := by
  have hone := appended_one b hcnt
  have hsucc : (appendByte b s).cnt.toNat = s.cnt.toNat + 1 := hone.cnt
  refine ⟨by rw [h.cnt, hsucc, List.length_cons]; omega, h.events, fun k c hk => ?_, fun a ha => ?_⟩
  · cases k with
    | zero =>
      obtain rfl : b = c := by simpa using hk
      rw [Nat.add_zero, h.below _ (by omega)]
      exact readByte_appendByte_same b s
    | succ k =>
      have hk' := h.stored k c (by simpa using hk)
      rw [hsucc] at hk'
      rwa [Nat.add_assoc, Nat.add_comm 1 k] at hk'
  · rw [h.below a (by omega), hone.below a ha]

/-- The induction over the bytes: each is appended, and the last runs `DECODE`. -/
theorem runEvents_collect {bs : List Byte} {s : State} (hcollect : s.phase = .collect) (hne : bs ≠ [])
    (hlen : s.cnt.toNat + bs.length = 32) :
    ∃ u, runEvents (chunk bs) s = .next (decodeFrame u) ∧ Appended s u bs := by
  induction bs generalizing s with
  | nil => exact absurd rfl hne
  | cons b bs ih =>
    rw [List.length_cons] at hlen
    rw [chunk_cons]
    cases bs with
    | nil => exact ⟨_, runEvents_last_byte [] hcollect (by simpa using hlen), appended_one b (by omega)⟩
    | cons c bs =>
      rw [List.length_cons] at hlen
      have hcnt : (appendByte b s).cnt.toNat = s.cnt.toNat + 1 := (appended_one b (by omega)).cnt
      obtain ⟨u, hrun, happ⟩ := ih (s := appendByte b s) hcollect (List.cons_ne_nil c bs)
        (by rw [hcnt, List.length_cons]; omega)
      exact ⟨u, (runEvents_append_byte _ hcollect (by omega)).trans hrun, happ.cons (by omega)⟩

/-- Settles O24: `DECODE` runs on the state the bytes were appended to, and leaves its buffer alone. -/
theorem collectingEndsWithTheThirtySecondByte : Obligations.CollectingEndsWithTheThirtySecondByte := by
  unfold Obligations.CollectingEndsWithTheThirtySecondByte
  intro s bs hcollect hne hlen
  obtain ⟨u, hrun, hcnt, hevents, hstored, hbelow⟩ := runEvents_collect hcollect hne hlen
  refine ⟨_, hrun, decodeFrame_phase u, ?_, ?_, (decodeFrame_events u).trans hevents, ?_, ?_⟩
  · rw [decodeFrame_cnt]
    exact BitVec.eq_of_toNat_eq (hcnt.trans hlen)
  · rw [decodeFrame_result, decodeFrame_buf]
  · rwa [decodeFrame_buf]
  · rwa [decodeFrame_buf]

/-! ### A buffer that holds a well-formed frame (R61, R71) -/

/-- The stored checksum `mkframe` appends (R71). -/
def frameChecksum (f : Vector Word 13) : Word := BitVec.ofNat 16 (listSum (frameBody f))

theorem mkframe_eq (f : Vector Word 13) :
    mkframe f = frameBody f ++ [hiByte (frameChecksum f), loByte (frameChecksum f)] := rfl

theorem mkframe_getElem?_body (f : Vector Word 13) {k : Nat} (hk : k < 30) : (mkframe f)[k]? = (frameBody f)[k]? := by
  rw [mkframe_eq, List.getElem?_append_left (by rwa [frameBody_length])]

/-- `BUF` holds the frame of the fields `f`. -/
def HoldsFrame (m : Memory) (f : Vector Word 13) : Prop :=
  ∀ (k : Nat) (b : Byte), (mkframe f)[k]? = some b → readByte m k = b

theorem HoldsFrame.body {m : Memory} {f : Vector Word 13} (h : HoldsFrame m f) {k : Nat} {b : Byte} (hk : k < 30)
    (hb : (frameBody f)[k]? = some b) : readByte m k = b :=
  h k b ((mkframe_getElem?_body f hk).trans hb)

theorem HoldsFrame.storedChecksum {m : Memory} {f : Vector Word 13} (h : HoldsFrame m f) :
    storedChecksum m = frameChecksum f := by
  have hhi : readByte m 30 = hiByte (frameChecksum f) :=
    h 30 _ (by rw [mkframe_eq, List.getElem?_append_right (by simp [frameBody_length])]; simp [frameBody_length])
  have hlo : readByte m 31 = loByte (frameChecksum f) :=
    h 31 _ (by rw [mkframe_eq, List.getElem?_append_right (by simp [frameBody_length])]; simp [frameBody_length])
  rw [Machine.storedChecksum, readPair, hhi, hlo, be16_hi_lo]

theorem HoldsFrame.computedChecksum {m : Memory} {f : Vector Word 13} (h : HoldsFrame m f) :
    computedChecksum m = frameChecksum f := by
  have hsum : byteSum m (frameBody f).length = listSum (frameBody f) :=
    byteSum_of_list m (frameBody f) fun k b hb =>
      h.body (by rw [← frameBody_length f]; exact (List.getElem?_eq_some_iff.mp hb).1) hb
  rw [frameBody_length] at hsum
  exact congrArg (BitVec.ofNat 16) hsum

theorem HoldsFrame.validFrame {m : Memory} {f : Vector Word 13} (h : HoldsFrame m f) : validFrame m :=
  ⟨(declaredLength_eq_iff m).mpr ⟨h 2 _ rfl, h 3 _ rfl⟩, h.computedChecksum.trans h.storedChecksum.symm⟩

theorem HoldsFrame.fieldValue {m : Memory} {f : Vector Word 13} (h : HoldsFrame m f) (i : Fin 13) :
    fieldValue m i.val = f[i] := by
  obtain ⟨hhi, hlo⟩ := frameBody_field f i
  rw [Machine.fieldValue, readPair, h.body (by omega) hhi, h.body (by omega) hlo, be16_hi_lo]

/-! ### A frame received (R71, R91, R92) -/

/-- The frame's bytes after its marker. -/
theorem mkframe_eq_marker_append (f : Vector Word 13) :
    mkframe f = 0x42 :: 0x4D :: (mkframe f).drop 2 := rfl

/-- `t` is idle after a frame of the fields `f`. -/
structure Measured (f : Vector Word 13) (t : State) : Prop where
  phase : t.phase = .idle
  result : t.result = .ok
  measValid : t.measValid = true
  cnt : t.cnt = 32
  meas : ∀ i : Fin 13, t.meas[i] = f[i]

/-- A full buffer that holds the frame is published. -/
theorem HoldsFrame.measured {s : State} {f : Vector Word 13} (h : HoldsFrame s.buf f) (hcnt : s.cnt.toNat = 32) :
    Measured f (decodeFrame s) := by
  rw [decodeFrame_of_validFrame h.validFrame]
  exact ⟨rfl, rfl, rfl, BitVec.eq_of_toNat_eq hcnt,
    fun i => (Vector.getElem_ofFn i.isLt).trans (h.fieldValue i)⟩

/-- The marker and the bytes collected after it are the frame. -/
theorem Appended.holdsFrame {s u : State} {f : Vector Word 13}
    (h : Appended (recordHit s) u ((mkframe f).drop 2)) : HoldsFrame u.buf f := by
  intro k b hb
  rw [mkframe_eq_marker_append] at hb
  match k, hb with
  | 0, hb =>
    cases hb
    exact (h.below 0 Nat.zero_lt_two).trans (readByte_recordHit_zero s)
  | 1, hb =>
    cases hb
    exact (h.below 1 Nat.one_lt_two).trans (readByte_recordHit_one s)
  | k + 2, hb =>
    rw [Nat.add_comm k 2]
    exact h.stored k b hb

/-- In `HUNT`, whatever byte came last, `0x42` is no hit and `0x4D` after it is one. -/
theorem runEvents_marker {s : State} (es : List EventWord) (hhunt : s.phase = .hunt) :
    ∃ v, runEvents (encode (.rx 0x42) :: encode (.rx 0x4D) :: es) s = runEvents es (recordHit v) ∧
      v.events = s.events := by
  have hmiss : ¬ isHit s 0x42 = true := by simp [isHit_iff]
  rw [runEvents_miss _ hhunt hmiss,
    runEvents_hit (s := respond true 0x0000 (notePrev 0x42 s)) _ hhunt ((isHit_iff _ _).mpr ⟨rfl, rfl, rfl⟩)]
  exact ⟨_, rfl, rfl⟩

/-- In `HUNT` a frame is measured: its marker, then thirty bytes. -/
theorem runEvents_mkframe {s : State} (f : Vector Word 13) (hhunt : s.phase = .hunt) :
    ∃ t, runEvents (chunk (mkframe f)) s = .next t ∧ Measured f t ∧ t.events = s.events := by
  have hlen : ((mkframe f).drop 2).length = 30 := by rw [List.length_drop, mkframe_length]
  have hne : (mkframe f).drop 2 ≠ [] := List.ne_nil_of_length_pos (by omega)
  obtain ⟨v, hmarker, hv⟩ := runEvents_marker (chunk ((mkframe f).drop 2)) hhunt
  obtain ⟨u, hrun, happ⟩ := runEvents_collect (recordHit_phase v) hne (by rw [hlen]; rfl)
  have hcnt : u.cnt.toNat = 32 := by rw [happ.cnt, hlen]; rfl
  exact ⟨_, hmarker.trans hrun, happ.holdsFrame.measured hcnt, (decodeFrame_events u).trans (happ.events.trans hv)⟩

theorem chunk_append (as bs : List Byte) : chunk (as ++ bs) = chunk as ++ chunk bs :=
  List.map_append

/-- `START`, bytes that hold no marker, and a frame. -/
theorem runEvents_start_noise_mkframe {s : State} {noise : List Byte} (f : Vector Word 13) (hidle : s.phase = .idle)
    (hno : ¬ holdsMarker noise) :
    ∃ t, runEvents (encode .start :: chunk (noise ++ mkframe f)) s = .next t ∧ Measured f t ∧
      t.events = s.events := by
  obtain ⟨p, v, o, d, hrun⟩ := runEvents_hunt_chunk (s := respond false 0x0000 (openAttempt s)) rfl hno
  obtain ⟨t, hframe, hmeas, hevents⟩ := runEvents_mkframe (s := { respond false 0x0000 (openAttempt s) with
    prev := p, prevValid := v, pop := o, rdData := d }) f rfl
  refine ⟨t, ?_, hmeas, hevents⟩
  rw [runEvents_instr _ (decode_encode .start) (execStart_of_idle hidle), chunk_append, runEvents_append _ hrun, hframe]

theorem not_holdsMarker_nil : ¬ holdsMarker [] := by
  rw [holdsMarker_iff_infix]
  simp

theorem listSum_eq_sum (l : List Byte) : listSum l = (l.map BitVec.toNat).sum := by
  induction l with
  | nil => rfl
  | cons b l ih => rw [listSum, ih, List.map_cons, List.sum_cons]

/-- Settles O25: the frame without noise before it; `mkframe` is its body and the two bytes of the body's sum. -/
theorem wellFormedFrameIsMeasured : Obligations.WellFormedFrameIsMeasured := by
  unfold Obligations.WellFormedFrameIsMeasured
  refine fun s f hidle => ⟨?_, _, _, _, mkframe_eq f, frameBody_length f, rfl, fun i => ?_, ?_⟩
  · obtain ⟨t, hrun, ⟨hphase, hresult, hvalid, hcnt, hmeas⟩, hevents⟩ :=
      runEvents_start_noise_mkframe f hidle not_holdsMarker_nil
    exact ⟨t, hrun, hphase, hresult, hvalid, hcnt, hmeas, hevents⟩
  · rw [show 5 + 2 * i.val = 4 + 2 * i.val + 1 by omega]
    exact frameBody_field f i
  · rw [be16_hi_lo, frameChecksum, listSum_eq_sum]

/-- Settles O26: the noise leaves the block in `HUNT`, and after the frame a byte is offered in `IDLE`. -/
theorem frameAfterNoiseIsMeasured : Obligations.FrameAfterNoiseIsMeasured := by
  unfold Obligations.FrameAfterNoiseIsMeasured
  intro s noise f b hidle hno
  obtain ⟨t, hrun, hmeasured, -⟩ := runEvents_start_noise_mkframe f hidle hno
  exact ⟨t, hrun, hmeasured.phase, hmeasured.result, hmeasured.meas, execRx_of_idle b hmeasured.phase⟩

end Sys2Proof
end

section
/-! PROOFS of the family other, the ports: the events of one cycle in their order (R8, R167, R204). -/

namespace Sys2Proof
open Machine

/-! ### The words of the ports as numbers (R8, R63) -/

theorem eventOf_eq_shift (k : BitVec 4) : eventOf k 0x00 = k.setWidth 12 <<< 8 := by
  apply BitVec.eq_of_toNat_eq
  have hk := k.isLt
  rw [eventOf_toNat, BitVec.toNat_shiftLeft, BitVec.toNat_setWidth, Nat.shiftLeft_eq]
  simp
  omega

theorem readWord_eq_add (a : Byte) : readWord a = 0x700 + a.setWidth 12 := by
  apply BitVec.eq_of_toNat_eq
  have ha := a.isLt
  rw [readWord, eventOf_toNat, BitVec.toNat_add, BitVec.toNat_setWidth]
  simp
  omega

theorem streamEvents_eq (p : Inputs) :
    streamEvents p = if p.rxValid then [0x100 + p.rxData.setWidth 12] else if p.tick then [0x200] else [] := by
  rw [streamEvents, ← rxWord_eq_encode]
  rfl

theorem assertedEvents_eq (p : Inputs) :
    assertedEvents p = (if p.rst then [(0xF00 : EventWord)] else []) ++
      (if p.cmdValid then [p.cmd.setWidth 12 <<< 8] else []) ++
      (if p.rdValid then [0x700 + p.rdAddr.setWidth 12] else []) ++
      (if p.rxValid then [0x100 + p.rxData.setWidth 12] else if p.tick then [0x200] else []) := by
  rw [assertedEvents, eventOf_eq_shift, readWord_eq_add, streamEvents_eq]
  rfl

theorem cycleEvents_eq (p : Inputs) :
    cycleEvents p = if assertedEvents p = [] then [encode .nop] else assertedEvents p := by
  unfold cycleEvents
  split
  next h => rw [if_pos h]
  next h => rw [if_neg h]

theorem decode_command {k : BitVec 4} {i : Instr} (h : encode i = eventOf k 0x00) :
    decode (k.setWidth 12 <<< 8) = .instr i := by
  rw [← eventOf_eq_shift, ← h, decode_encode]

/-! ### The cycles the rules speak of -/

theorem cycleEvents_start_byte {p : Inputs} (hrst : p.rst = false) (hcmd : p.cmdValid = true) (hk : p.cmd = 0x3)
    (hrd : p.rdValid = false) (hrx : p.rxValid = true) :
    cycleEvents p = [encode .start, encode (.rx p.rxData)] := by
  simp only [cycleEvents, assertedEvents, streamEvents, hrst, hcmd, hk, hrd, hrx]
  rfl

theorem cycleEvents_status_byte {p : Inputs} (hrst : p.rst = false) (hcmd : p.cmdValid = false)
    (hrd : p.rdValid = true) (ha : p.rdAddr = 0x00) (hrx : p.rxValid = true) :
    cycleEvents p = [encode .rdStatus, encode (.rx p.rxData)] := by
  simp only [cycleEvents, assertedEvents, streamEvents, hrst, hcmd, hrd, ha, hrx]
  rfl

theorem cycleEvents_reset_byte {p : Inputs} (hrst : p.rst = true) (hcmd : p.cmdValid = false)
    (hrd : p.rdValid = false) (hrx : p.rxValid = true) :
    cycleEvents p = [encode (.reset 0x00), encode (.rx p.rxData)] := by
  simp only [cycleEvents, assertedEvents, streamEvents, hrst, hcmd, hrd, hrx]
  rfl

theorem cycleEvents_nothing {p : Inputs} (hrst : p.rst = false) (hcmd : p.cmdValid = false)
    (hrd : p.rdValid = false) (hrx : p.rxValid = false) (htick : p.tick = false) :
    cycleEvents p = [encode .nop] := by
  simp only [cycleEvents, assertedEvents, streamEvents, hrst, hcmd, hrd, hrx, htick]
  rfl

/-- The first step of a cycle runs its first event with the others still pending. -/
theorem run_one_applyInputs {p : Inputs} {i : Instr} {es : List EventWord} {s t : State}
    (hcycle : cycleEvents p = encode i :: es) (h : exec i s = .next t) :
    Host.Core.run Sys2Proof.core 1 (applyInputs p s) = .next (deliver es t) := by
  have hstep : Sys2Proof.core.step (applyInputs p s) = .next (deliver es t) := by
    rw [applyInputs, hcycle]
    show step (deliver (encode i :: es) s) = _
    rw [step, nextWord_deliver_cons, decode_encode, takeEvent_deliver_cons]
    exact exec_deliver es h
  simp only [Host.Core.run, hstep]

/-- Settles O57: the words of the ports, and three cycles run event by event. -/
theorem portsAreServedInOrder : Obligations.PortsAreServedInOrder := by
  unfold Obligations.PortsAreServedInOrder
  refine ⟨?_, ⟨decode_command rfl, decode_command rfl, decode_command rfl, decode_command rfl⟩, fun _ _ => rfl,
    ?_, ?_, ?_, fun p => cycleEvents_nothing⟩
  · rintro p _ rfl
    rw [← assertedEvents_eq]
    exact cycleEvents_eq p
  · intro p s hidle hrst hcmd hk hrd hrx
    rw [cycleEvents_start_byte hrst hcmd hk hrd hrx,
      runEvents_instr _ (decode_encode .start) (execStart_of_idle hidle)]
    exact ⟨_, runEvents_miss [] rfl (by simp [isHit_iff]), rfl, rfl, rfl, rfl, rfl⟩
  · intro p s hrst hcmd hrd ha hrx
    exact run_one_applyInputs (cycleEvents_status_byte hrst hcmd hrd ha hrx) rfl
  · intro p s hrst hcmd hrd hrx
    rw [cycleEvents_reset_byte hrst hcmd hrd hrx, runEvents_instr _ (decode_encode _) (exec_reset 0x00 s)]
    exact ⟨_, runEvents_rx [] (execRx_of_idle (s := respond false 0x0000 (clearAll s)) p.rxData rfl), rfl, rfl, rfl⟩

end Sys2Proof
end
